-- ==== Sys2Proof/Word.lean ====
section
/-! DEFINITION. The word types of the block: bytes, 16-bit logical addresses, pixels (00_scope.md R7). -/

namespace Sys2Proof

/-- The unit of every memory access and the width of a port data value (20_memory.md R64, 00_scope.md R7). -/
abbrev Byte := BitVec 8

/-- A logical address or a port number, 16 bits (00_scope.md R7). -/
abbrev Addr := BitVec 16

/-- A frame-buffer pixel as the triple the rules determine (42_video_ops.md R172, decision D16). -/
structure Rgb where
  r : Byte
  g : Byte
  b : Byte
deriving DecidableEq, Repr, Inhabited

/-- The pixel with all three channels zero. -/
def Rgb.black : Rgb := ⟨0, 0, 0⟩

end Sys2Proof
end

