-- ==== Sys2Proof/Config.lean ====
section
/-! DEFINITION. What an implementation fixes (the parameters of 00_scope.md R6 that operations read), the reset
parameters of R6, and the one free value of the model (60_exceptions.md R262). -/

namespace Sys2Proof

/-- The two memory-map sizes, `NBANKS` = 32 or 64 (00_scope.md R6). -/
inductive BankCount where
  | banks32
  | banks64
deriving DecidableEq, Repr, Inhabited

/-- The parameters of a context, fixed for its life (10_state.md R46). OPEN items are arguments here; a statement about
every `Config` is a statement about every variant the spec allows. -/
structure Config where
  /-- `NBANKS`, a variant. -/
  banks : BankCount
  /-- `HAS_L2_TRANSP`, a variant (decision D5). -/
  hasL2Transp : Bool
  /-- `ALLOC_CAN_FAIL` (decision D30). -/
  allocCanFail : Bool
  /-- `BORDER_W`, OPEN (decision D14). -/
  borderW : Nat
  /-- `BORDER_H`, OPEN (decision D14). -/
  borderH : Nat
  /-- `BORDER_COLOUR[0..7]`, OPEN (decision D15). -/
  borderColour : Vector Rgb 8
  /-- `BASE_COLOUR[0..15]`, OPEN (decision D15). -/
  baseColour : Vector Rgb 16
deriving DecidableEq, Repr

/-- The reset parameters the source gives no value for (10_state.md R45, decision D11). -/
structure ResetParams where
  /-- `RESET_BORDER` -/
  border : BitVec 3
  /-- `RESET_REGSEL` -/
  regSelect : Byte
  /-- `RESET_L2_BANKSTART` -/
  bankStart : BitVec 5
  /-- `RESET_L2_SHADOWSTART` -/
  shadowBankStart : BitVec 5
  /-- `RESET_L2_TRANSP` -/
  transparentIndex : Byte
  /-- `RESET_REDRAW` -/
  redrawRequest : Bool
  /-- `RAM_INIT`, as a list of (bank * 16384 + offset, nonzero byte); every other byte is 0. -/
  ramInit : List (Nat × Byte)
deriving DecidableEq, Repr

/-- FREE VALUE (60_exceptions.md R262, decision D30, log entry 7): whether the `n`-th draw of an allocation outcome is
a failure. It has no body, so nothing can be proved of its value. -/
opaque Config.allocationFails : Nat → Bool

end Sys2Proof
end

