-- ==== Sys2Proof/Machine/Constants.lean ====
section
/-! DEFINITION. The named constants and parameter functions of 00_scope.md R6, and the values `State.reset` takes for
the parameters the spec leaves OPEN. -/

namespace Sys2Proof

/-- `NBANKS` as a number (00_scope.md R6). -/
def Config.nbanks (c : Config) : Nat :=
  match c.banks with
  | .banks32 => 32
  | .banks64 => 64

/-- `MAP_1MB`: true exactly when `NBANKS = 64` (00_scope.md R6). DESIGN CHOICE of the spec, D4, log entry 14. -/
def Config.map1mb (c : Config) : Bool :=
  match c.banks with
  | .banks32 => false
  | .banks64 => true

namespace Machine

/-- `PAGE_SIZE` (00_scope.md R6). -/
def pageSize : Nat := 16384

/-- `LOGICAL_SIZE` (00_scope.md R6). -/
def logicalSize : Nat := 65536

/-- `REDIRECT_SLOT` (00_scope.md R6). DESIGN CHOICE of the spec, D8, log entry 13. -/
def redirectSlot : BitVec 2 := 1

/-- `BASE_SCREEN_BANK` (00_scope.md R6). DESIGN CHOICE of the spec, D13, log entry 17. -/
def baseScreenBank : Nat := 5

/-- `SCREEN_W` (42_video_ops.md R170). -/
def screenW : Nat := 256

/-- `SCREEN_H` (42_video_ops.md R170). -/
def screenH : Nat := 192

/-- `STORED_MAX` (00_scope.md R6, 90_conflicts.md C1). DESIGN CHOICE of the spec, D22, log entry 19. -/
def storedMax : Nat := 65535

/-- `CRC_POLY` (43_checksum_ops.md R200). -/
def crcPoly : BitVec 32 := 0xEDB88320

/-- The seed and the final exclusive-or of the CRC-32 generator (43_checksum_ops.md R200). -/
def crcOnes : BitVec 32 := 0xFFFFFFFF

/-- `ADLER_MOD` (43_checksum_ops.md R207). -/
def adlerMod : Nat := 65521

/-- The value of `tickCounter` at which the next TICK inverts the toggle: `FLASH_TICKS` - 1 (42_video_ops.md R181). -/
def lastTick : BitVec 4 := 15

/-- `EXP3` (42_video_ops.md R171). -/
def exp3 (i : BitVec 3) : Byte :=
  (#v[0, 36, 73, 109, 146, 182, 219, 255] : Vector Byte 8)[i.toNat]'i.isLt

/-- `EXP2` (42_video_ops.md R171). -/
def exp2 (i : BitVec 2) : Byte :=
  (#v[0, 85, 170, 255] : Vector Byte 4)[i.toNat]'i.isLt

/-- `WrapBank` (20_memory.md R68). DESIGN CHOICE of the spec, D6, log entry 13. -/
def wrapBank (c : Config) (b : Nat) : Nat := b % c.nbanks

/-- `FB_W` (42_video_ops.md R170). -/
def fbWidth (c : Config) : Nat := screenW + 2 * c.borderW

/-- `FB_H` (42_video_ops.md R170). -/
def fbHeight (c : Config) : Nat := screenH + 2 * c.borderH

/-- The ports of the decode map that are decoded on all 16 bits (30_encoding.md R94). -/
def portPagelo : Addr := 0x7FFD
def portPagehi : Addr := 0xDFFD
def portL2ctrl : Addr := 0x123B
def portRegsel : Addr := 0x243B
def portRegdata : Addr := 0x253B
def portRsvd : Addr := 0x303B

/-- The low port byte that selects OUT.BORDER whatever the high byte (30_encoding.md R94). -/
def portBorderLow : Byte := 0xFE

/-- The configuration of `State.reset`. DESIGN CHOICE, log entry 8: the variant with every row of the port table
(64 banks, register 0x14), the border sizes of the spec's own vectors (95_test_vectors.md V-VID-7), all colours black. -/
def defaultConfig : Config where
  banks := .banks64
  hasL2Transp := true
  allocCanFail := true
  borderW := 2
  borderH := 1
  borderColour := Vector.replicate 8 Rgb.black
  baseColour := Vector.replicate 16 Rgb.black

/-- The reset parameters of `State.reset`. DESIGN CHOICE, log entries 9 and 10: zero everywhere. -/
def defaultResetParams : ResetParams where
  border := 0
  regSelect := 0
  bankStart := 0
  shadowBankStart := 0
  transparentIndex := 0
  redrawRequest := false
  ramInit := []

end Machine
end Sys2Proof
end

