-- ==== Sys2Proof/Machine/Ranges.lean ====
section
/-! DEFINITION. The operand ranges the spec gives beyond the widths of the fields (93_implementation_defined.md U9,
U13; 45_png_nim_ops.md R240, R244, R246). -/

namespace Sys2Proof.Machine

/-- Length of the raw scanline stream of a `w` by `h` image (45_png_nim_ops.md R242). -/
def pngRawLength (w h : Nat) : Nat := h * (1 + 4 * w)

/-- Number of stored blocks of a stream of `n` bytes: max(1, ceil(n / STORED_MAX)) (44_deflate_zlib_ops.md R222). -/
def storedBlockCount (n : Nat) : Nat :=
  max 1 ((n + (storedMax - 1)) / storedMax)

/-- Operand range of STORED_BLOCK: at most STORED_MAX data bytes (93_implementation_defined.md U13). -/
def storedBlockOk (data : List Byte) : Bool := data.length ≤ storedMax

/-- Operand range of PNG_CHUNK: fewer than 2^31 data bytes (45_png_nim_ops.md R240). -/
def pngChunkOk (data : List Byte) : Bool := data.length < 2 ^ 31

/-- Operand range of PNG_ENCODE (45_png_nim_ops.md R244, 93_implementation_defined.md U9, decision D35): sizes 1 to
2^31 - 1, one index byte per pixel, 256 palette bytes, and an IDAT data length below 2^31. That another palette length
is refused is a DESIGN CHOICE, log entry 16. -/
def pngEncodeOk (w h : Nat) (idx pal : List Byte) : Bool :=
  1 ≤ w && w < 2 ^ 31 && 1 ≤ h && h < 2 ^ 31 && idx.length == w * h && pal.length == 256
    && 2 + pngRawLength w h + 5 * storedBlockCount (pngRawLength w h) + 4 < 2 ^ 31

/-- Operand range of NIM_WRITE: `w * h` image bytes (45_png_nim_ops.md R246). That another length is refused is a
DESIGN CHOICE, log entry 16. -/
def nimWriteOk (w h : BitVec 16) (img : List Byte) : Bool := img.length == w.toNat * h.toNat

/-- OUT.BORDER takes any high byte; OUT.NONE names a port that no unconditional row of the map selects
(30_encoding.md R94). The ports 0x7FFD and 0xDFFD may be OUT.NONE (R95). -/
def outNoneOk (port : Addr) : Bool :=
  port.extractLsb' 0 8 != portBorderLow && port != portL2ctrl && port != portRegsel
    && port != portRegdata && port != portRsvd

end Sys2Proof.Machine
end

