-- ==== Sys2Proof/Syntax.lean ====
section
/-! DEFINITION. The operations as the host presents them (30_encoding.md R91: a record of a kind and its operands), and
`Instr`, one constructor per row of spec/opcode_table.json. -/

namespace Sys2Proof

/-- The operation kinds the host invokes (30_encoding.md R92). The decoded rows of OUT are no kinds: a port write is one
kind, and its row is selected by the port number (R94). -/
inductive Kind where
  | xlat | rdb | wrb | rdbk | wrbk | rdw | wrw | bulkwr | bulkwrbk
  | out | inp | writereg | readreg
  | renderbase | renderlayer2 | compose | tick | ackredraw
  | crcInit | crcByte | crcFinal | crc32
  | adlerInit | adlerByte | adlerFinal | adler32
  | storedBlock | storedStream | zlibWrap
  | pngChunk | pngEncode | nimWrite | nimRead
deriving DecidableEq, Repr

/-- One operand of a transaction record: an unsigned number or a sequence of bytes (30_encoding.md R91). -/
inductive Operand where
  | num (n : Nat)
  | bytes (bs : List Byte)
deriving DecidableEq, Repr

/-- A transaction record (30_encoding.md R91): what the host presents for one operation. -/
structure Transaction where
  kind : Kind
  operands : List Operand
deriving DecidableEq, Repr

/-- What port decoding depends on beside the port number (30_encoding.md R99). -/
structure DecodeCtx where
  map1mb : Bool
  hasL2Transp : Bool
  regSelect : Byte
deriving DecidableEq, Repr

/-- The rows of the port decode map (30_encoding.md R94, R95). -/
inductive PortRow where
  | border | pagelo | pagehi | l2ctrl | regsel
  | regdata12 | regdata13 | regdata14 | regdataNone
  | rsvd | none
deriving DecidableEq, Repr

/-- The four type bytes of a PNG chunk (45_png_nim_ops.md R240). -/
structure ChunkType where
  b0 : Byte
  b1 : Byte
  b2 : Byte
  b3 : Byte
deriving DecidableEq, Repr

/-- The type as the bytes that stand in the chunk. -/
def ChunkType.toBytes (t : ChunkType) : List Byte := [t.b0, t.b1, t.b2, t.b3]

/-- The operations, one constructor per row of spec/opcode_table.json. `out` is a port write whose row is not yet
selected (41_port_ops.md R140); the constructors `outBorder` to `outNone` are its decoded rows. -/
inductive Instr where
  | xlat (addr : Addr) (w : Bool)
  | rdb (addr : Addr)
  | wrb (addr : Addr) (data : Byte)
  | rdbk (bank offset : Nat)
  | wrbk (bank offset : Nat) (data : Byte)
  | rdw (addr : Addr)
  | wrw (addr : Addr) (data : BitVec 16)
  | bulkwr (addr : Addr) (bytes : List Byte)
  | bulkwrbk (bank offset : Nat) (bytes : List Byte)
  | out (port : Addr) (data : Byte)
  | outBorder (portHigh : Byte) (data : Byte)
  | outPagelo (data : Byte)
  | outPagehi (data : Byte)
  | outL2ctrl (data : Byte)
  | outRegsel (data : Byte)
  | outRegdata12 (data : Byte)
  | outRegdata13 (data : Byte)
  | outRegdata14 (data : Byte)
  | outRegdataNone (data : Byte)
  | outRsvd (data : Byte)
  | outNone (port : Addr) (data : Byte)
  | inp (port : Addr)
  | writereg (reg data : Byte)
  | readreg (reg : Byte)
  | renderbase
  | renderlayer2
  | compose
  | tick
  | ackredraw
  | crcInit
  | crcByte (b : Byte)
  | crcFinal
  | crc32 (bytes : List Byte)
  | adlerInit
  | adlerByte (b : Byte)
  | adlerFinal
  | adler32 (bytes : List Byte)
  | storedBlock (final : Bool) (data : List Byte)
  | storedStream (raw : List Byte)
  | zlibWrap (raw : List Byte)
  | pngChunk (type : ChunkType) (data : List Byte)
  | pngEncode (w h : Nat) (idx pal : List Byte) (t : Byte)
  | nimWrite (w h : BitVec 16) (img : List Byte)
  | nimRead (bytes : List Byte)
deriving DecidableEq, Repr

end Sys2Proof
end

