-- ==== Sys2Proof/WellFormed.lean ====
section
/-! DEFINITION. Which operands a row accepts, and the rows' mnemonics; the ranges themselves are in
Machine/Ranges.lean. -/

namespace Sys2Proof

/-- The instruction's operands are in the range the spec gives its row. -/
def Instr.wellFormed : Instr → Bool
  | .outNone port _ => Machine.outNoneOk port
  | .storedBlock _ data => Machine.storedBlockOk data
  | .pngChunk _ data => Machine.pngChunkOk data
  | .pngEncode w h idx pal _ => Machine.pngEncodeOk w h idx pal
  | .nimWrite w h img => Machine.nimWriteOk w h img
  | .xlat _ _ | .rdb _ | .wrb _ _ | .rdbk _ _ | .wrbk _ _ _ | .rdw _ | .wrw _ _ | .bulkwr _ _ | .bulkwrbk _ _ _
  | .out _ _ | .outBorder _ _ | .outPagelo _ | .outPagehi _ | .outL2ctrl _ | .outRegsel _ | .outRegdata12 _
  | .outRegdata13 _ | .outRegdata14 _ | .outRegdataNone _ | .outRsvd _ | .inp _ | .writereg _ _ | .readreg _
  | .renderbase | .renderlayer2 | .compose | .tick | .ackredraw | .crcInit | .crcByte _ | .crcFinal | .crc32 _
  | .adlerInit | .adlerByte _ | .adlerFinal | .adler32 _ | .storedStream _ | .zlibWrap _ | .nimRead _ => true

/-- The mnemonic of the instruction's row in spec/opcode_table.json. -/
def Instr.mnemonic : Instr → String
  | .xlat _ _ => "XLAT"
  | .rdb _ => "RDB"
  | .wrb _ _ => "WRB"
  | .rdbk _ _ => "RDBK"
  | .wrbk _ _ _ => "WRBK"
  | .rdw _ => "RDW"
  | .wrw _ _ => "WRW"
  | .bulkwr _ _ => "BULKWR"
  | .bulkwrbk _ _ _ => "BULKWRBK"
  | .out _ _ => "OUT"
  | .outBorder _ _ => "OUT.BORDER"
  | .outPagelo _ => "OUT.PAGELO"
  | .outPagehi _ => "OUT.PAGEHI"
  | .outL2ctrl _ => "OUT.L2CTRL"
  | .outRegsel _ => "OUT.REGSEL"
  | .outRegdata12 _ => "OUT.REGDATA.12"
  | .outRegdata13 _ => "OUT.REGDATA.13"
  | .outRegdata14 _ => "OUT.REGDATA.14"
  | .outRegdataNone _ => "OUT.REGDATA.NONE"
  | .outRsvd _ => "OUT.RSVD"
  | .outNone _ _ => "OUT.NONE"
  | .inp _ => "IN"
  | .writereg _ _ => "WRITEREG"
  | .readreg _ => "READREG"
  | .renderbase => "RENDERBASE"
  | .renderlayer2 => "RENDERLAYER2"
  | .compose => "COMPOSE"
  | .tick => "TICK"
  | .ackredraw => "ACKREDRAW"
  | .crcInit => "CRC_INIT"
  | .crcByte _ => "CRC_BYTE"
  | .crcFinal => "CRC_FINAL"
  | .crc32 _ => "CRC32"
  | .adlerInit => "ADLER_INIT"
  | .adlerByte _ => "ADLER_BYTE"
  | .adlerFinal => "ADLER_FINAL"
  | .adler32 _ => "ADLER32"
  | .storedBlock _ _ => "STORED_BLOCK"
  | .storedStream _ => "STORED_STREAM"
  | .zlibWrap _ => "ZLIB_WRAP"
  | .pngChunk _ _ => "PNG_CHUNK"
  | .pngEncode _ _ _ _ _ => "PNG_ENCODE"
  | .nimWrite _ _ _ => "NIM_WRITE"
  | .nimRead _ => "NIM_READ"

end Sys2Proof
end

