-- ==== Sys2Proof/Decode.lean ====
section
/-! DEFINITION. The decoder: from a transaction record to the operation it is (30_encoding.md R91 to R99), total, with
a named rejection; the port decode map (R94, R95); and the encoder, written from the same formats. -/

namespace Sys2Proof

/-- Why a record is no operation of the block. -/
inductive DecodeError where
  /-- The operands are not those of the kind's format (30_encoding.md R91): wrong number, wrong sort, or a number wider
  than its field. -/
  | operandsDoNotFit (kind : Kind)
deriving DecidableEq, Repr

/-- A numeric field of `w` bits: a number that does not fit is rejected, never truncated. -/
def Operand.bits (w : Nat) : Operand → Option (BitVec w)
  | .num n => if n < 2 ^ w then some (BitVec.ofNat w n) else none
  | .bytes _ => none

/-- A field that is a natural number of any size (the bank and offset operands, decision D33). -/
def Operand.nat : Operand → Option Nat
  | .num n => some n
  | .bytes _ => none

/-- A field that is a sequence of bytes. -/
def Operand.seq : Operand → Option (List Byte)
  | .num _ => none
  | .bytes bs => some bs

/-- A field of one bit. -/
def Operand.flag : Operand → Option Bool
  | .num 0 => some false
  | .num 1 => some true
  | .num _ => none
  | .bytes _ => none

/-- A chunk type: a sequence of exactly four bytes (45_png_nim_ops.md R240). -/
def Operand.chunkType : Operand → Option ChunkType
  | .bytes [a, b, c, d] => some ⟨a, b, c, d⟩
  | .bytes _ => none
  | .num _ => none

/-- `mask` of a row of the port decode map (30_encoding.md R94). -/
def PortRow.mask : PortRow → Addr
  | .border => 0x00FF
  | .none => 0x0000
  | .pagelo | .pagehi | .l2ctrl | .regsel | .regdata12 | .regdata13 | .regdata14 | .regdataNone | .rsvd => 0xFFFF

/-- `match` of a row of the port decode map (30_encoding.md R94). -/
def PortRow.pattern : PortRow → Addr
  | .border => 0x00FE
  | .pagelo => Machine.portPagelo
  | .pagehi => Machine.portPagehi
  | .l2ctrl => Machine.portL2ctrl
  | .regsel => Machine.portRegsel
  | .regdata12 | .regdata13 | .regdata14 | .regdataNone => Machine.portRegdata
  | .rsvd => Machine.portRsvd
  | .none => 0x0000

/-- The extra condition of a row (30_encoding.md R94, R95, 41_port_ops.md R149). -/
def PortRow.condition (ctx : DecodeCtx) : PortRow → Bool
  | .pagelo | .pagehi => ctx.map1mb
  | .regdata12 => ctx.regSelect == 0x12
  | .regdata13 => ctx.regSelect == 0x13
  | .regdata14 => ctx.regSelect == 0x14 && ctx.hasL2Transp
  | .regdataNone => ctx.regSelect != 0x12 && ctx.regSelect != 0x13 && !(ctx.regSelect == 0x14 && ctx.hasL2Transp)
  | .border | .l2ctrl | .regsel | .rsvd | .none => true

/-- The row's (mask, match) pair and its extra condition hold of a port number (30_encoding.md R94). -/
def PortRow.accepts (ctx : DecodeCtx) (port : Addr) (row : PortRow) : Bool :=
  (port &&& row.mask) == row.pattern && row.condition ctx

/-- The row a port write selects, in the order of 41_port_ops.md R140. -/
def selectRow (ctx : DecodeCtx) (port : Addr) : PortRow :=
  if port.extractLsb' 0 8 = Machine.portBorderLow then .border
  else if port = Machine.portPagelo ∧ ctx.map1mb = true then .pagelo
  else if port = Machine.portPagehi ∧ ctx.map1mb = true then .pagehi
  else if port = Machine.portL2ctrl then .l2ctrl
  else if port = Machine.portRegsel then .regsel
  else if port = Machine.portRegdata then
    if ctx.regSelect = 0x12 then .regdata12
    else if ctx.regSelect = 0x13 then .regdata13
    else if ctx.regSelect = 0x14 ∧ ctx.hasL2Transp = true then .regdata14
    else .regdataNone
  else if port = Machine.portRsvd then .rsvd
  else .none

/-- The operation a selected row is, for the port number and data byte of the write. -/
def rowInstr (row : PortRow) (port : Addr) (data : Byte) : Instr :=
  match row with
  | .border => .outBorder (port.extractLsb' 8 8) data
  | .pagelo => .outPagelo data
  | .pagehi => .outPagehi data
  | .l2ctrl => .outL2ctrl data
  | .regsel => .outRegsel data
  | .regdata12 => .outRegdata12 data
  | .regdata13 => .outRegdata13 data
  | .regdata14 => .outRegdata14 data
  | .regdataNone => .outRegdataNone data
  | .rsvd => .outRsvd data
  | .none => .outNone port data

/-- A port write is decoded on its full port number and the context (30_encoding.md R93 to R95, R99). -/
def decodePortWrite (ctx : DecodeCtx) (port : Addr) (data : Byte) : Instr :=
  rowInstr (selectRow ctx port) port data

/-- A format without operands. -/
def read0 (i : Instr) : List Operand → Option Instr
  | [] => some i
  | _ => none

/-- A format of one operand, read by `f`. -/
def read1 {α : Type} (f : Operand → Option α) (mk : α → Instr) : List Operand → Option Instr
  | [a] => (f a).map mk
  | _ => none

/-- A format of two operands. -/
def read2 {α β : Type} (f : Operand → Option α) (g : Operand → Option β) (mk : α → β → Instr) :
    List Operand → Option Instr
  | a :: rest => (f a).bind fun x => read1 g (mk x) rest
  | [] => none

/-- A format of three operands. -/
def read3 {α β γ : Type} (f : Operand → Option α) (g : Operand → Option β) (h : Operand → Option γ)
    (mk : α → β → γ → Instr) : List Operand → Option Instr
  | a :: rest => (f a).bind fun x => read2 g h (mk x) rest
  | [] => none

/-- The format of PNG_ENCODE: two more operands before those of `read3`. -/
def read5 {α β γ δ ε : Type} (f : Operand → Option α) (g : Operand → Option β) (h : Operand → Option γ)
    (k : Operand → Option δ) (l : Operand → Option ε) (mk : α → β → γ → δ → ε → Instr) :
    List Operand → Option Instr
  | a :: b :: rest => (f a).bind fun x => (g b).bind fun y => read3 h k l (mk x y) rest
  | _ => none

/-- The operands of a record, read by the format of its kind (30_encoding.md R91). -/
def decodeOperands (ctx : DecodeCtx) : Kind → List Operand → Option Instr
  | .xlat => read2 (Operand.bits 16) Operand.flag .xlat
  | .rdb => read1 (Operand.bits 16) .rdb
  | .wrb => read2 (Operand.bits 16) (Operand.bits 8) .wrb
  | .rdbk => read2 Operand.nat Operand.nat .rdbk
  | .wrbk => read3 Operand.nat Operand.nat (Operand.bits 8) .wrbk
  | .rdw => read1 (Operand.bits 16) .rdw
  | .wrw => read2 (Operand.bits 16) (Operand.bits 16) .wrw
  | .bulkwr => read2 (Operand.bits 16) Operand.seq .bulkwr
  | .bulkwrbk => read3 Operand.nat Operand.nat Operand.seq .bulkwrbk
  | .out => read2 (Operand.bits 16) (Operand.bits 8) (decodePortWrite ctx)
  | .inp => read1 (Operand.bits 16) .inp
  | .writereg => read2 (Operand.bits 8) (Operand.bits 8) .writereg
  | .readreg => read1 (Operand.bits 8) .readreg
  | .renderbase => read0 .renderbase
  | .renderlayer2 => read0 .renderlayer2
  | .compose => read0 .compose
  | .tick => read0 .tick
  | .ackredraw => read0 .ackredraw
  | .crcInit => read0 .crcInit
  | .crcByte => read1 (Operand.bits 8) .crcByte
  | .crcFinal => read0 .crcFinal
  | .crc32 => read1 Operand.seq .crc32
  | .adlerInit => read0 .adlerInit
  | .adlerByte => read1 (Operand.bits 8) .adlerByte
  | .adlerFinal => read0 .adlerFinal
  | .adler32 => read1 Operand.seq .adler32
  | .storedBlock => read2 Operand.flag Operand.seq .storedBlock
  | .storedStream => read1 Operand.seq .storedStream
  | .zlibWrap => read1 Operand.seq .zlibWrap
  | .pngChunk => read2 Operand.chunkType Operand.seq .pngChunk
  | .pngEncode => read5 Operand.nat Operand.nat Operand.seq Operand.seq (Operand.bits 8) .pngEncode
  | .nimWrite => read3 (Operand.bits 16) (Operand.bits 16) Operand.seq .nimWrite
  | .nimRead => read1 Operand.seq .nimRead

/-- The decoder, total on every record. -/
def decode (ctx : DecodeCtx) (t : Transaction) : Except DecodeError Instr :=
  match decodeOperands ctx t.kind t.operands with
  | some i => .ok i
  | none => .error (.operandsDoNotFit t.kind)

/-- A one-bit field as a number. -/
def flagNat (b : Bool) : Nat := if b then 1 else 0

/-- The record of a port write. -/
def encodePortWrite (port : Addr) (data : Byte) : Transaction :=
  ⟨.out, [.num port.toNat, .num data.toNat]⟩

/-- The record the host presents for an operation (30_encoding.md R91, R94). -/
def encode : Instr → Transaction
  | .xlat a w => ⟨.xlat, [.num a.toNat, .num (flagNat w)]⟩
  | .rdb a => ⟨.rdb, [.num a.toNat]⟩
  | .wrb a v => ⟨.wrb, [.num a.toNat, .num v.toNat]⟩
  | .rdbk b o => ⟨.rdbk, [.num b, .num o]⟩
  | .wrbk b o v => ⟨.wrbk, [.num b, .num o, .num v.toNat]⟩
  | .rdw a => ⟨.rdw, [.num a.toNat]⟩
  | .wrw a v => ⟨.wrw, [.num a.toNat, .num v.toNat]⟩
  | .bulkwr a bs => ⟨.bulkwr, [.num a.toNat, .bytes bs]⟩
  | .bulkwrbk b o bs => ⟨.bulkwrbk, [.num b, .num o, .bytes bs]⟩
  | .out p v => encodePortWrite p v
  | .outBorder hi v => encodePortWrite (hi ++ Machine.portBorderLow) v
  | .outPagelo v => encodePortWrite Machine.portPagelo v
  | .outPagehi v => encodePortWrite Machine.portPagehi v
  | .outL2ctrl v => encodePortWrite Machine.portL2ctrl v
  | .outRegsel v => encodePortWrite Machine.portRegsel v
  | .outRegdata12 v => encodePortWrite Machine.portRegdata v
  | .outRegdata13 v => encodePortWrite Machine.portRegdata v
  | .outRegdata14 v => encodePortWrite Machine.portRegdata v
  | .outRegdataNone v => encodePortWrite Machine.portRegdata v
  | .outRsvd v => encodePortWrite Machine.portRsvd v
  | .outNone p v => encodePortWrite p v
  | .inp p => ⟨.inp, [.num p.toNat]⟩
  | .writereg r v => ⟨.writereg, [.num r.toNat, .num v.toNat]⟩
  | .readreg r => ⟨.readreg, [.num r.toNat]⟩
  | .renderbase => ⟨.renderbase, []⟩
  | .renderlayer2 => ⟨.renderlayer2, []⟩
  | .compose => ⟨.compose, []⟩
  | .tick => ⟨.tick, []⟩
  | .ackredraw => ⟨.ackredraw, []⟩
  | .crcInit => ⟨.crcInit, []⟩
  | .crcByte b => ⟨.crcByte, [.num b.toNat]⟩
  | .crcFinal => ⟨.crcFinal, []⟩
  | .crc32 bs => ⟨.crc32, [.bytes bs]⟩
  | .adlerInit => ⟨.adlerInit, []⟩
  | .adlerByte b => ⟨.adlerByte, [.num b.toNat]⟩
  | .adlerFinal => ⟨.adlerFinal, []⟩
  | .adler32 bs => ⟨.adler32, [.bytes bs]⟩
  | .storedBlock f bs => ⟨.storedBlock, [.num (flagNat f), .bytes bs]⟩
  | .storedStream bs => ⟨.storedStream, [.bytes bs]⟩
  | .zlibWrap bs => ⟨.zlibWrap, [.bytes bs]⟩
  | .pngChunk t bs => ⟨.pngChunk, [.bytes t.toBytes, .bytes bs]⟩
  | .pngEncode w h idx pal t => ⟨.pngEncode, [.num w, .num h, .bytes idx, .bytes pal, .num t.toNat]⟩
  | .nimWrite w h img => ⟨.nimWrite, [.num w.toNat, .num h.toNat, .bytes img]⟩
  | .nimRead bs => ⟨.nimRead, [.bytes bs]⟩

/-- The context selects the row that the operation names: the decoded rows of OUT need their condition
(30_encoding.md R94, R95); every other operation needs none; a bare `out` has no row yet. -/
def Instr.selectedIn (ctx : DecodeCtx) : Instr → Bool
  | .out _ _ => false
  | .outPagelo _ | .outPagehi _ => ctx.map1mb
  | .outRegdata12 _ => PortRow.condition ctx .regdata12
  | .outRegdata13 _ => PortRow.condition ctx .regdata13
  | .outRegdata14 _ => PortRow.condition ctx .regdata14
  | .outRegdataNone _ => PortRow.condition ctx .regdataNone
  | .outNone port _ => !(ctx.map1mb && (port == Machine.portPagelo || port == Machine.portPagehi))
  | .xlat _ _ | .rdb _ | .wrb _ _ | .rdbk _ _ | .wrbk _ _ _ | .rdw _ | .wrw _ _ | .bulkwr _ _ | .bulkwrbk _ _ _
  | .outBorder _ _ | .outL2ctrl _ | .outRegsel _ | .outRsvd _ | .inp _ | .writereg _ _ | .readreg _
  | .renderbase | .renderlayer2 | .compose | .tick | .ackredraw | .crcInit | .crcByte _ | .crcFinal | .crc32 _
  | .adlerInit | .adlerByte _ | .adlerFinal | .adler32 _ | .storedBlock _ _ | .storedStream _ | .zlibWrap _
  | .pngChunk _ _ | .pngEncode _ _ _ _ _ | .nimWrite _ _ _ | .nimRead _ => true

/-- A port write laid out as one word: the 16-bit port number in bits 15:0 (the only bits the block decodes,
30_encoding.md R90, R93) and the data byte above it in bits 23:16. DESIGN CHOICE, log entry 2. -/
def portWriteOfWord (w : Nat) : Transaction :=
  ⟨.out, [.num (w % 65536), .num (w / 65536 % 256)]⟩

/-- The decode context right after reset (30_encoding.md R99: `RESET_REGSEL` before any select write). -/
def resetCtx : DecodeCtx where
  map1mb := Machine.defaultConfig.map1mb
  hasL2Transp := Machine.defaultConfig.hasL2Transp
  regSelect := Machine.defaultResetParams.regSelect

/-- The operation the decoder reads, in the context right after reset, from a port write whose word is `w`. -/
def decodeTableWord (nbits w : Nat) : Option Instr :=
  if nbits ≤ 24 ∧ w < 2 ^ nbits then (decode resetCtx (portWriteOfWord w)).toOption else none

end Sys2Proof
end

