-- ==== Sys2Proof/Machine/State.lean ====
section
/-! DEFINITION. The state of the block (10_state.md R20), what an operation hands to the host, the outcomes that stop
the machine, and the state after reset (R45). -/

namespace Sys2Proof.Machine

/-- A physical location: a bank and a 14-bit offset (20_memory.md R61). -/
structure Loc where
  bank : Nat
  offset : BitVec 14
deriving DecidableEq, Repr

/-- The three failures (60_exceptions.md R260). A failure is the RESULT of an operation, not a stop of the machine
(R264); the two numbers of `boundsExceeded` are information only. -/
inductive Failure where
  | boundsExceeded (start length : Nat)
  | allocationFailed
  | malformedInput
deriving DecidableEq, Repr

/-- What an operation hands to the host (30_encoding.md R91). -/
inductive Result where
  | none
  | ok
  | byte (v : Byte)
  | word (v : BitVec 16)
  | sum (v : BitVec 32)
  | location (l : Loc)
  | bytes (bs : List Byte)
  | image (w h : BitVec 16) (img : List Byte)
  | failed (f : Failure)
deriving DecidableEq, Repr

/-- No operation of the block stops it with a fault: the three failures are results, and everything else never fails
(60_exceptions.md R264, R265). The type has no value. -/
inductive Fault where
deriving DecidableEq, Repr

/-- Why the machine gives no step. -/
inductive Refusal where
  /-- Raised by an arm of `exec` that has no meaning yet. Safe. -/
  | notModelled (mnemonic : String)
  /-- Raised by `step`: the record the host presents is no operation of the block (30_encoding.md R91). Safe. -/
  | undecodable (error : DecodeError)
  /-- Raised by `step` and by the meanings of STORED_BLOCK, PNG_CHUNK, PNG_ENCODE and NIM_WRITE: the operands are
  outside the range the spec gives (93_implementation_defined.md U9, U13; log entry 16). Safe. -/
  | operandsOutOfRange (mnemonic : String)
deriving DecidableEq, Repr

/-- The bank table as (bank * 16384 + offset, byte) pairs; an address not listed reads as 0 (log entry 10). -/
abbrev Memory := List Host.Cell

/-- The state: the tuple of 10_state.md R20, the parameters of the context, and three fields of the model's own
(`pending`, `result`, `draws`). -/
structure State where
  /-- The parameters of the context (10_state.md R46); no operation changes them. -/
  cfg : Config
  /-- `RAM` (R23). -/
  ram : Memory
  /-- The SlotTable (R24). -/
  slot : Vector (BitVec 6) 4
  /-- R25 -/
  border : BitVec 3
  /-- R26 -/
  pagingLow : BitVec 3
  /-- R27 -/
  pagingHigh : BitVec 3
  /-- R28 -/
  subBank : BitVec 2
  /-- R28 -/
  shadowEnable : Bool
  /-- R28 -/
  enable : Bool
  /-- R28 -/
  write0Enable : Bool
  /-- R29 -/
  regSelect : Byte
  /-- R30 -/
  bankStart : BitVec 5
  /-- R31 -/
  shadowBankStart : BitVec 5
  /-- R32 -/
  transparentIndex : Byte
  /-- R40 -/
  redrawRequest : Bool
  /-- R34 -/
  palette : Vector Byte 256
  /-- R35 -/
  flashToggle : Bool
  /-- R36 -/
  tickCounter : BitVec 4
  /-- `FB`, row 0 first (R37). -/
  fb : List (List Rgb)
  /-- R38 -/
  crc : BitVec 32
  /-- R39 -/
  s1 : BitVec 16
  /-- R39 -/
  s2 : BitVec 16
  /-- MODEL's own: the transactions the host has still to issue (decision D1, log entry 1). -/
  pending : List Transaction
  /-- MODEL's own: what the last operation handed to the host (log entry 5). -/
  result : Result
  /-- MODEL's own: how many free allocation outcomes have been drawn (log entry 7). -/
  draws : Nat
deriving DecidableEq, Repr

/-- The outcome of one operation. -/
abbrev Answer := Host.Outcome State Fault Refusal

/-- The identity palette (10_state.md R34). -/
def identityPalette : Vector Byte 256 := Vector.ofFn fun i => BitVec.ofNat 8 i.val

/-- A frame of one colour, shaped as 10_state.md R37 says. -/
def blankFrame (c : Config) : List (List Rgb) :=
  List.replicate (fbHeight c) (List.replicate (fbWidth c) Rgb.black)

/-- The state after reset for given parameters (10_state.md R45, 70_reset_and_hazards.md R280). -/
def State.resetWith (c : Config) (p : ResetParams) : State where
  cfg := c
  ram := p.ramInit
  slot := #v[0, 5, 2, 0]
  border := p.border
  pagingLow := 0
  pagingHigh := 0
  subBank := 0
  shadowEnable := false
  enable := false
  write0Enable := false
  regSelect := p.regSelect
  bankStart := p.bankStart
  shadowBankStart := p.shadowBankStart
  transparentIndex := p.transparentIndex
  redrawRequest := p.redrawRequest
  palette := identityPalette
  flashToggle := false
  tickCounter := 0
  fb := blankFrame c
  crc := 0
  s1 := 0
  s2 := 0
  pending := []
  result := .none
  draws := 0

/-- The state after reset at the parameters the log names (log entries 8 to 12). -/
def State.reset : State := State.resetWith defaultConfig defaultResetParams

/-- What port decoding depends on, read from the state (30_encoding.md R99). -/
def State.decodeCtx (s : State) : DecodeCtx where
  map1mb := s.cfg.map1mb
  hasL2Transp := s.cfg.hasL2Transp
  regSelect := s.regSelect

end Sys2Proof.Machine
end

