-- ==== Sys2Proof/Machine/Operands.lean ====
section
/-! DEFINITION. Operand forms: the fields of a logical address, of the data bytes of port writes, of attribute and
palette bytes, the byte orders of the codec formats, and the geometry of the screen. -/

namespace Sys2Proof.Machine

/-- The slot of a logical address, bits 15:14 (30_encoding.md R107). -/
def addrSlot (a : Addr) : BitVec 2 := a.extractLsb' 14 2

/-- The offset of a logical address, bits 13:0 (30_encoding.md R107). -/
def addrOffset (a : Addr) : BitVec 14 := a.extractLsb' 0 14

/-- The offset operand of RDBK and WRBK, masked to 14 bits (40_memory_ops.md R123). -/
def maskOffset (o : Nat) : BitVec 14 := BitVec.ofNat 14 o

/-- Bits 2:0 of a port data byte (30_encoding.md R97). -/
def low3 (v : Byte) : BitVec 3 := v.extractLsb' 0 3

/-- Bits 4:0 of a port data byte (30_encoding.md R98). -/
def low5 (v : Byte) : BitVec 5 := v.extractLsb' 0 5

/-- `subBank` of a Layer2 control byte, bits 7:6 (30_encoding.md R96). -/
def ctrlSubBank (v : Byte) : BitVec 2 := v.extractLsb' 6 2

/-- `shadowEnable` of a Layer2 control byte, bit 3 (30_encoding.md R96). -/
def ctrlShadowEnable (v : Byte) : Bool := v.getLsbD 3

/-- `enable` of a Layer2 control byte, bit 1 (30_encoding.md R96). -/
def ctrlEnable (v : Byte) : Bool := v.getLsbD 1

/-- `write0Enable` of a Layer2 control byte, bit 0 (30_encoding.md R96). -/
def ctrlWrite0Enable (v : Byte) : Bool := v.getLsbD 0

/-- `pagingLow + pagingHigh * 8`, the six bits `pagingHigh || pagingLow` (30_encoding.md R97). -/
def pagedBank (low high : BitVec 3) : BitVec 6 := low.setWidth 6 + high.setWidth 6 * 8

/-- Ink index of an attribute byte: `attr[2:0] + (attr[6] << 3)` (42_video_ops.md R174). -/
def attrInk (attr : Byte) : BitVec 4 :=
  (attr.extractLsb' 0 3).setWidth 4 + ((attr.extractLsb' 6 1).setWidth 4 <<< 3)

/-- Paper index of an attribute byte: `attr[5:3]` (42_video_ops.md R174). -/
def attrPaper (attr : Byte) : BitVec 4 := (attr.extractLsb' 3 3).setWidth 4

/-- Flash bit of an attribute byte (42_video_ops.md R174). -/
def attrFlash (attr : Byte) : Bool := attr.getLsbD 7

/-- The (foreground, background) indices of a cell: swapped when its flash bit is set and the flash toggle is active
(42_video_ops.md R174). -/
def cellIndices (flashToggle : Bool) (attr : Byte) : BitVec 4 × BitVec 4 :=
  if attrFlash attr && flashToggle then (attrPaper attr, attrInk attr) else (attrInk attr, attrPaper attr)

/-- `Rgb332`: colour of a palette byte (42_video_ops.md R171). The bit positions of the channels are a DESIGN CHOICE of
the spec, D17, log entry 18. -/
def rgb332 (c : Byte) : Rgb := ⟨exp3 (c.extractLsb' 5 3), exp3 (c.extractLsb' 2 3), exp2 (c.extractLsb' 0 2)⟩

/-- `Pack`: a pixel as 32 bits (42_video_ops.md R172). DESIGN CHOICE of the spec, D16, log entry 18. -/
def packPixel (p : Rgb) : BitVec 32 := (0 : Byte) ++ p.r ++ p.g ++ p.b

/-- `pixelAddress` of row `r`, column `c` of the screen (42_video_ops.md R175). -/
def pixelAddress (r c : Nat) : Nat :=
  ((r &&& 0xC0) <<< 5) ||| ((r &&& 0x07) <<< 8) ||| ((r &&& 0x38) <<< 2) ||| (c >>> 3)

/-- `attrAddress` of row `r`, column `c` of the screen (42_video_ops.md R175). -/
def attrAddress (r c : Nat) : Nat := 0x1800 + ((r &&& 0xF8) <<< 2) + (c >>> 3)

/-- The bit of a bitmap byte that column `c` shows, most significant first (42_video_ops.md R173). -/
def bitmapBit (bmp : Byte) (c : Nat) : Bool := bmp.getLsbD (7 - (c &&& 7))

/-- Offset of canvas position `(x, y)` in its strip (42_video_ops.md R178). DESIGN CHOICE of the spec, D18,
log entry 18. -/
def canvasOffset (x y : Nat) : Nat := ((y &&& 63) <<< 8) ||| x

/-- The frame position `(row, col)` lies in the visible area (42_video_ops.md R170, R176). -/
def inScreen (c : Config) (row col : Nat) : Bool :=
  c.borderH ≤ row && row < c.borderH + screenH && c.borderW ≤ col && col < c.borderW + screenW

/-- A 16-bit field, least significant byte first (30_encoding.md R103, R106). -/
def le16 (v : BitVec 16) : List Byte := [v.extractLsb' 0 8, v.extractLsb' 8 8]

/-- A 32-bit field, most significant byte first (30_encoding.md R104, R105). -/
def be32 (v : BitVec 32) : List Byte :=
  [v.extractLsb' 24 8, v.extractLsb' 16 8, v.extractLsb' 8 8, v.extractLsb' 0 8]

end Sys2Proof.Machine
end

