-- ==== Sys2Proof/Machine/Flags.lean ====
section
/-! DEFINITION. The one-bit state items that operations write as side effects (10_state.md R42): the redraw request and
the flash toggle with its counter. -/

namespace Sys2Proof.Machine

/-- `RequestRedraw()` (00_scope.md R9, 10_state.md R40). -/
def State.requestRedraw (s : State) : State := { s with redrawRequest := true }

/-- Clearing of the redraw request (42_video_ops.md R183). DESIGN CHOICE of the spec, D19, log entry 20. -/
def State.clearRedraw (s : State) : State := { s with redrawRequest := false }

/-- One flash tick (42_video_ops.md R181). -/
def State.flashTick (s : State) : State :=
  if s.tickCounter = lastTick then
    { s with tickCounter := 0, flashToggle := !s.flashToggle }.requestRedraw
  else { s with tickCounter := s.tickCounter + 1 }

end Sys2Proof.Machine
end

