-- ==== Sys2Proof/Machine/Ops.lean ====
section
/-! DEFINITION. The named operations over memory and registers: bytes of RAM in canonical form, address translation,
the effects of the port rows, and the delivery of results and of failures. -/

namespace Sys2Proof.Machine

/-- A byte of RAM by its key; a key that is not listed reads as 0 (log entry 10). -/
def Memory.read : Memory → Nat → Byte
  | [], _ => 0
  | (k, v) :: m, a => if a = k then v else Memory.read m a

/-- Put a cell before the first cell with a greater key. -/
def Memory.insert (a : Nat) (v : Byte) : Memory → Memory
  | [] => [(a, v)]
  | (k, w) :: m => if a < k then (a, v) :: (k, w) :: m else (k, w) :: Memory.insert a v m

/-- Write a byte, keeping the canonical form: writing what an unlisted key reads as removes the cell. -/
def Memory.write (m : Memory) (a : Nat) (v : Byte) : Memory :=
  let rest := m.filter fun c => c.1 ≠ a
  if v = 0 then rest else Memory.insert a v rest

/-- The canonical form: keys strictly rising, and no cell equal to what an unlisted key reads as. -/
abbrev Memory.wf (m : Memory) : Prop :=
  m.Pairwise (fun x y => x.1 < y.1) ∧ ∀ c ∈ m, c.2 ≠ 0

/-- The key of a physical location in the bank table (10_state.md R23). -/
def Loc.key (l : Loc) : Nat := l.bank * pageSize + l.offset.toNat

/-- `RAM[b][o]`. -/
def State.ramByte (s : State) (l : Loc) : Byte := Memory.read s.ram l.key

/-- `RAM[b][o] <- v`. -/
def State.setRamByte (s : State) (l : Loc) (v : Byte) : State := { s with ram := Memory.write s.ram l.key v }

/-- `slot[i]` (10_state.md R24). -/
def State.slotBank (s : State) (i : BitVec 2) : Nat := (s.slot[i.toNat]'i.isLt).toNat

/-- The first Layer2 bank in use (20_memory.md R66, 42_video_ops.md R178). -/
def State.layer2Start (s : State) : BitVec 5 := if s.shadowEnable then s.shadowBankStart else s.bankStart

/-- The bank a redirected write goes to (20_memory.md R66, R68). -/
def State.redirectBank (s : State) : Nat := wrapBank s.cfg (s.layer2Start.toNat + s.subBank.toNat)

/-- A write to this address is captured by Layer2 (20_memory.md R66, R67). -/
def State.redirects (s : State) (a : Addr) : Bool := s.write0Enable && addrSlot a == redirectSlot

/-- `Translate(a, w)` (20_memory.md R66). -/
def State.translate (s : State) (a : Addr) (w : Bool) : Loc :=
  if w && s.redirects a then ⟨s.redirectBank, addrOffset a⟩ else ⟨s.slotBank (addrSlot a), addrOffset a⟩

/-- The location of a direct-bank byte access: bank wrapped, offset masked (40_memory_ops.md R123, R124). -/
def State.directLoc (s : State) (bank offset : Nat) : Loc := ⟨wrapBank s.cfg bank, maskOffset offset⟩

/-- The effect of RDB (40_memory_ops.md R121). -/
def State.readByte (s : State) (a : Addr) : Byte := s.ramByte (s.translate a false)

/-- The effect of WRB (40_memory_ops.md R122). -/
def State.writeByte (s : State) (a : Addr) (v : Byte) : State := s.setRamByte (s.translate a true) v

/-- The effect of RDW: two independent byte reads (40_memory_ops.md R125); `a + 1` is modulo 65536 (20_memory.md R69,
decision D7, log entry 13). -/
def State.readWord (s : State) (a : Addr) : BitVec 16 := s.readByte (a + 1) ++ s.readByte a

/-- The effect of WRW: two independent byte writes, low byte first (40_memory_ops.md R126). -/
def State.writeWord (s : State) (a : Addr) (v : BitVec 16) : State :=
  (s.writeByte a (v.extractLsb' 0 8)).writeByte (a + 1) (v.extractLsb' 8 8)

/-- Bytes written at consecutive logical addresses, each translated on its own (40_memory_ops.md R127). -/
def State.writeBytes (s : State) (a : Addr) : List Byte → State
  | [] => s
  | b :: bs => (s.writeByte a b).writeBytes (a + 1) bs

/-- Bytes written at consecutive offsets of one bank (40_memory_ops.md R128). -/
def State.writeBankBytes (s : State) (bank offset : Nat) : List Byte → State
  | [] => s
  | b :: bs => (s.setRamByte ⟨bank, BitVec.ofNat 14 offset⟩ b).writeBankBytes bank (offset + 1) bs

/-- The operation ends with this result. -/
def State.deliver (s : State) (r : Result) : State := { s with result := r }

/-- `raise X` (60_exceptions.md R264): the operation ends with the failure as its result and changes nothing else. -/
def State.fail (s : State) (f : Failure) : State := s.deliver (.failed f)

/-- The allocation fails at the next draw: the free outcome of an encoder operation (60_exceptions.md R262). -/
def State.allocationFails (s : State) : Bool := s.cfg.allocCanFail && Config.allocationFails s.draws

/-- An outcome has been drawn where the parameter allows a failure (60_exceptions.md R262). -/
def State.countDraw (s : State) : State := if s.cfg.allocCanFail then { s with draws := s.draws + 1 } else s

/-- Delivery of an encoder's output: the bytes, or AllocationFailed and no output (44_deflate_zlib_ops.md R226). -/
def State.deliverEncoded (s : State) (bs : List Byte) : State :=
  if s.allocationFails then s.countDraw.fail .allocationFailed else s.countDraw.deliver (.bytes bs)

/-- The effect of row OUT.BORDER (41_port_ops.md R141). -/
def State.rowBorder (s : State) (v : Byte) : State := { s with border := low3 v }.requestRedraw

/-- The effect of row OUT.PAGELO (41_port_ops.md R142). -/
def State.rowPagelo (s : State) (v : Byte) : State := { s with pagingLow := low3 v }

/-- The effect of row OUT.PAGEHI (41_port_ops.md R143). -/
def State.rowPagehi (s : State) (v : Byte) : State :=
  { s with pagingHigh := low3 v, slot := s.slot.set 3 (pagedBank s.pagingLow (low3 v)) }

/-- The effect of row OUT.L2CTRL (41_port_ops.md R144). -/
def State.rowL2ctrl (s : State) (v : Byte) : State :=
  { s with
    subBank := ctrlSubBank v
    shadowEnable := ctrlShadowEnable v
    enable := ctrlEnable v
    write0Enable := ctrlWrite0Enable v }.requestRedraw

/-- The effect of row OUT.REGSEL (41_port_ops.md R145). -/
def State.rowRegsel (s : State) (v : Byte) : State := { s with regSelect := v }

/-- The effect of row OUT.REGDATA.12 (41_port_ops.md R146). -/
def State.rowRegdata12 (s : State) (v : Byte) : State := { s with bankStart := low5 v }.requestRedraw

/-- The effect of row OUT.REGDATA.13 (41_port_ops.md R147). -/
def State.rowRegdata13 (s : State) (v : Byte) : State := { s with shadowBankStart := low5 v }.requestRedraw

/-- The effect of row OUT.REGDATA.14 (41_port_ops.md R148). -/
def State.rowRegdata14 (s : State) (v : Byte) : State := { s with transparentIndex := v }

/-- The effect of a selected row (41_port_ops.md R141 to R150); the last three change nothing (R149, R150). -/
def State.rowEffect (s : State) (v : Byte) : PortRow → State
  | .border => s.rowBorder v
  | .pagelo => s.rowPagelo v
  | .pagehi => s.rowPagehi v
  | .l2ctrl => s.rowL2ctrl v
  | .regsel => s.rowRegsel v
  | .regdata12 => s.rowRegdata12 v
  | .regdata13 => s.rowRegdata13 v
  | .regdata14 => s.rowRegdata14 v
  | .regdataNone => s
  | .rsvd => s
  | .none => s

/-- `OUT(p, value)` (41_port_ops.md R140): the one row the decode map selects takes effect. -/
def State.portOut (s : State) (p : Addr) (v : Byte) : State := s.rowEffect v (selectRow s.decodeCtx p)

/-- `IN(p)`: 0 for every port, no effect (41_port_ops.md R151). -/
def portIn (_ : Addr) : Byte := 0

end Sys2Proof.Machine
end

