-- ==== Sys2Proof/Machine/ChecksumOps.lean ====
section
/-! DEFINITION. The CRC-32 generator and the Adler-32 accumulator (43_checksum_ops.md). -/

namespace Sys2Proof.Machine

/-- One shift of the reflected register (43_checksum_ops.md R201). -/
def crcShift (c : BitVec 32) : BitVec 32 := if c.getLsbD 0 then (c >>> 1) ^^^ crcPoly else c >>> 1

/-- Eight shifts (43_checksum_ops.md R201). -/
def crcShift8 (c : BitVec 32) : BitVec 32 :=
  crcShift (crcShift (crcShift (crcShift (crcShift (crcShift (crcShift (crcShift c)))))))

/-- `CRCT[n]`, the constant table (43_checksum_ops.md R201). -/
def crcTable (n : Byte) : BitVec 32 := crcShift8 (n.setWidth 32)

/-- The table-driven step on a byte (43_checksum_ops.md R203). -/
def crcStep (c : BitVec 32) (b : Byte) : BitVec 32 := crcTable ((c ^^^ b.setWidth 32).extractLsb' 0 8) ^^^ (c >>> 8)

/-- `CRC32(bytes)` (43_checksum_ops.md R205). -/
def crc32 (bytes : List Byte) : BitVec 32 := bytes.foldl crcStep crcOnes ^^^ crcOnes

/-- The two sums of Adler-32 (43_checksum_ops.md R207). -/
structure AdlerSums where
  s1 : BitVec 16
  s2 : BitVec 16
deriving DecidableEq, Repr

/-- The seed (43_checksum_ops.md R207). -/
def adlerSeed : AdlerSums := ⟨1, 0⟩

/-- The step on a byte (43_checksum_ops.md R208). The order of the two updates is a DESIGN CHOICE of the spec, D27,
log entry 19. -/
def adlerStep (a : AdlerSums) (b : Byte) : AdlerSums :=
  let n1 := (a.s1.toNat + b.toNat) % adlerMod
  ⟨BitVec.ofNat 16 n1, BitVec.ofNat 16 ((a.s2.toNat + n1) % adlerMod)⟩

/-- The combination `(s2 << 16) | s1` (43_checksum_ops.md R209). -/
def adlerCombine (a : AdlerSums) : BitVec 32 := a.s2 ++ a.s1

/-- `ADLER32(bytes)` (43_checksum_ops.md R210). -/
def adler32 (bytes : List Byte) : BitVec 32 := adlerCombine (bytes.foldl adlerStep adlerSeed)

/-- The sums the state holds (10_state.md R39). -/
def State.adler (s : State) : AdlerSums := ⟨s.s1, s.s2⟩

/-- `s1` and `s2` replaced. -/
def State.setAdler (s : State) (a : AdlerSums) : State := { s with s1 := a.s1, s2 := a.s2 }

/-- CRC_INIT (43_checksum_ops.md R202). -/
def execCrcInit (s : State) : Answer := .next ({ s with crc := crcOnes }.deliver .none)

/-- CRC_BYTE (43_checksum_ops.md R203). -/
def execCrcByte (b : Byte) (s : State) : Answer := .next ({ s with crc := crcStep s.crc b }.deliver .none)

/-- CRC_FINAL (43_checksum_ops.md R204). -/
def execCrcFinal (s : State) : Answer := .next (s.deliver (.sum (s.crc ^^^ crcOnes)))

/-- CRC32 (43_checksum_ops.md R205). -/
def execCrc32 (bytes : List Byte) (s : State) : Answer := .next (s.deliver (.sum (crc32 bytes)))

/-- ADLER_INIT (43_checksum_ops.md R207). -/
def execAdlerInit (s : State) : Answer := .next ((s.setAdler adlerSeed).deliver .none)

/-- ADLER_BYTE (43_checksum_ops.md R208). -/
def execAdlerByte (b : Byte) (s : State) : Answer := .next ((s.setAdler (adlerStep s.adler b)).deliver .none)

/-- ADLER_FINAL (43_checksum_ops.md R209). -/
def execAdlerFinal (s : State) : Answer := .next (s.deliver (.sum (adlerCombine s.adler)))

/-- ADLER32 (43_checksum_ops.md R210). -/
def execAdler32 (bytes : List Byte) (s : State) : Answer := .next (s.deliver (.sum (adler32 bytes)))

end Sys2Proof.Machine
end

