-- ==== Sys2Proof/Machine/StoredOps.lean ====
section
/-! DEFINITION. The DEFLATE stored-block encoder and the zlib wrapper (44_deflate_zlib_ops.md). -/

namespace Sys2Proof.Machine

/-- One stored block: five header bytes, then the data (44_deflate_zlib_ops.md R220, R221). Padding bits and the byte
order of NLEN are a DESIGN CHOICE of the spec, D24, log entry 19. -/
def storedBlock (final : Bool) (data : List Byte) : List Byte :=
  let len := BitVec.ofNat 16 data.length
  (if final then 1 else 0) :: (le16 len ++ le16 (len ^^^ 0xFFFF) ++ data)

/-- A stream as stored blocks, each but the last of STORED_MAX bytes (44_deflate_zlib_ops.md R222, R223). -/
def storedStream (raw : List Byte) : List Byte :=
  (List.range (storedBlockCount raw.length)).flatMap fun k =>
    storedBlock (k + 1 == storedBlockCount raw.length) ((raw.drop (k * storedMax)).take storedMax)

/-- A zlib stream without compression (44_deflate_zlib_ops.md R224). Header bytes and trailer order are a DESIGN
CHOICE of the spec, D25, log entry 19. -/
def zlibWrap (raw : List Byte) : List Byte := [0x78, 0x01] ++ storedStream raw ++ be32 (adler32 raw)

/-- STORED_BLOCK (44_deflate_zlib_ops.md R220); more than STORED_MAX bytes are refused (93 U13). -/
def execStoredBlock (final : Bool) (data : List Byte) (s : State) : Answer :=
  if storedBlockOk data then .next (s.deliver (.bytes (storedBlock final data)))
  else .refused (.operandsOutOfRange "STORED_BLOCK")

/-- STORED_STREAM (44_deflate_zlib_ops.md R222, R226). -/
def execStoredStream (raw : List Byte) (s : State) : Answer := .next (s.deliverEncoded (storedStream raw))

/-- ZLIB_WRAP (44_deflate_zlib_ops.md R224, R226). -/
def execZlibWrap (raw : List Byte) (s : State) : Answer := .next (s.deliverEncoded (zlibWrap raw))

end Sys2Proof.Machine
end

