-- ==== Sys2Proof/Machine/ContainerOps.lean ====
section
/-! DEFINITION. PNG framing and the NIM container (45_png_nim_ops.md). -/

namespace Sys2Proof.Machine

/-- The PNG signature (30_encoding.md R105). -/
def pngSignature : List Byte := [0x89, 0x50, 0x4E, 0x47, 0x0D, 0x0A, 0x1A, 0x0A]

/-- The chunk types (30_encoding.md R105). -/
def typeIhdr : ChunkType := ⟨0x49, 0x48, 0x44, 0x52⟩
def typeIdat : ChunkType := ⟨0x49, 0x44, 0x41, 0x54⟩
def typeIend : ChunkType := ⟨0x49, 0x45, 0x4E, 0x44⟩

/-- One chunk (45_png_nim_ops.md R240). The layout is a DESIGN CHOICE of the spec, D26, log entry 19. -/
def pngChunk (type : ChunkType) (data : List Byte) : List Byte :=
  be32 (BitVec.ofNat 32 data.length) ++ type.toBytes ++ data ++ be32 (crc32 (type.toBytes ++ data))

/-- The four bytes of a pixel: R, G, B, A (45_png_nim_ops.md R241). A palette operand has 256 bytes (R244), so the
default of the lookup is never taken. -/
def pngPixel (pal : List Byte) (t i : Byte) : List Byte :=
  let c := rgb332 (pal.getD i.toNat 0)
  [c.r, c.g, c.b, if i = t then 0 else 255]

/-- The raw scanline stream: each row is a zero filter byte and its pixels (45_png_nim_ops.md R242). -/
def pngRaw (w h : Nat) (idx pal : List Byte) (t : Byte) : List Byte :=
  (List.range h).flatMap fun y => 0 :: ((idx.drop (y * w)).take w).flatMap (pngPixel pal t)

/-- IHDR data (45_png_nim_ops.md R243). -/
def ihdrData (w h : Nat) : List Byte :=
  be32 (BitVec.ofNat 32 w) ++ be32 (BitVec.ofNat 32 h) ++ [0x08, 0x06, 0x00, 0x00, 0x00]

/-- The PNG byte stream of an indexed image (45_png_nim_ops.md R244). -/
def pngEncode (w h : Nat) (idx pal : List Byte) (t : Byte) : List Byte :=
  pngSignature ++ pngChunk typeIhdr (ihdrData w h) ++ pngChunk typeIdat (zlibWrap (pngRaw w h idx pal t))
    ++ pngChunk typeIend []

/-- The NIM container of an image (45_png_nim_ops.md R246). -/
def nimWrite (w h : BitVec 16) (img : List Byte) : List Byte := le16 0 ++ le16 w ++ le16 h ++ img

/-- The result of reading a NIM container (45_png_nim_ops.md R247); the treatment of short input and of trailing bytes
is a DESIGN CHOICE of the spec, D41, log entry 19. -/
def nimRead : List Byte → Result
  | v0 :: v1 :: w0 :: w1 :: h0 :: h1 :: rest =>
    let w := w1 ++ w0
    let h := h1 ++ h0
    if v1 ++ v0 ≠ (0 : BitVec 16) then .failed .malformedInput
    else if rest.length < w.toNat * h.toNat then .failed .malformedInput
    else .image w h (rest.take (w.toNat * h.toNat))
  | _ => .failed .malformedInput

/-- PNG_CHUNK (45_png_nim_ops.md R240). -/
def execPngChunk (type : ChunkType) (data : List Byte) (s : State) : Answer :=
  if pngChunkOk data then .next (s.deliver (.bytes (pngChunk type data)))
  else .refused (.operandsOutOfRange "PNG_CHUNK")

/-- PNG_ENCODE (45_png_nim_ops.md R244); operands outside the range are refused (93 U9, decision D35). -/
def execPngEncode (w h : Nat) (idx pal : List Byte) (t : Byte) (s : State) : Answer :=
  if pngEncodeOk w h idx pal then .next (s.deliverEncoded (pngEncode w h idx pal t))
  else .refused (.operandsOutOfRange "PNG_ENCODE")

/-- NIM_WRITE (45_png_nim_ops.md R246). -/
def execNimWrite (w h : BitVec 16) (img : List Byte) (s : State) : Answer :=
  if nimWriteOk w h img then .next (s.deliverEncoded (nimWrite w h img))
  else .refused (.operandsOutOfRange "NIM_WRITE")

/-- NIM_READ (45_png_nim_ops.md R247). -/
def execNimRead (bytes : List Byte) (s : State) : Answer := .next (s.deliver (nimRead bytes))

end Sys2Proof.Machine
end

