-- ==== Sys2Proof/Machine/MemoryOps.lean ====
section
/-! DEFINITION. The memory operations of the MemoryController (40_memory_ops.md). -/

namespace Sys2Proof.Machine

/-- XLAT (40_memory_ops.md R120). -/
def execXlat (addr : Addr) (w : Bool) (s : State) : Answer := .next (s.deliver (.location (s.translate addr w)))

/-- RDB (40_memory_ops.md R121). -/
def execRdb (addr : Addr) (s : State) : Answer := .next (s.deliver (.byte (s.readByte addr)))

/-- WRB (40_memory_ops.md R122). -/
def execWrb (addr : Addr) (data : Byte) (s : State) : Answer := .next ((s.writeByte addr data).deliver .none)

/-- RDBK (40_memory_ops.md R123). -/
def execRdbk (bank offset : Nat) (s : State) : Answer :=
  .next (s.deliver (.byte (s.ramByte (s.directLoc bank offset))))

/-- WRBK (40_memory_ops.md R124). -/
def execWrbk (bank offset : Nat) (data : Byte) (s : State) : Answer :=
  .next ((s.setRamByte (s.directLoc bank offset) data).deliver .none)

/-- RDW (40_memory_ops.md R125). -/
def execRdw (addr : Addr) (s : State) : Answer := .next (s.deliver (.word (s.readWord addr)))

/-- WRW (40_memory_ops.md R126). -/
def execWrw (addr : Addr) (data : BitVec 16) (s : State) : Answer := .next ((s.writeWord addr data).deliver .none)

/-- BULKWR (40_memory_ops.md R127): the check is on the natural sum and comes before any write. -/
def execBulkwr (addr : Addr) (bytes : List Byte) (s : State) : Answer :=
  if addr.toNat + bytes.length > logicalSize then .next (s.fail (.boundsExceeded addr.toNat bytes.length))
  else .next ((s.writeBytes addr bytes).requestRedraw.deliver .ok)

/-- BULKWRBK (40_memory_ops.md R128): the offset is compared as given; no redraw request. -/
def execBulkwrbk (bank offset : Nat) (bytes : List Byte) (s : State) : Answer :=
  if offset + bytes.length > pageSize then .next (s.fail (.boundsExceeded offset bytes.length))
  else .next ((s.writeBankBytes (wrapBank s.cfg bank) offset bytes).deliver .ok)

end Sys2Proof.Machine
end

