-- ==== Sys2Proof/Machine/PortOps.lean ====
section
/-! DEFINITION. The port operations and the register side-effect state machine (41_port_ops.md). A decoded row whose
condition does not hold in the state is the port write it is: the row that the state selects takes effect
(R142, R148 corner cases; log entry 4). -/

namespace Sys2Proof.Machine

/-- OUT (41_port_ops.md R140). -/
def execOut (port : Addr) (data : Byte) (s : State) : Answer := .next ((s.portOut port data).deliver .none)

/-- OUT.BORDER (41_port_ops.md R141); the high port byte is ignored. -/
def execOutBorder (_portHigh data : Byte) (s : State) : Answer := .next ((s.rowBorder data).deliver .none)

/-- OUT.PAGELO (41_port_ops.md R142). -/
def execOutPagelo (data : Byte) (s : State) : Answer :=
  .next ((if s.cfg.map1mb then s.rowPagelo data else s.portOut portPagelo data).deliver .none)

/-- OUT.PAGEHI (41_port_ops.md R143). -/
def execOutPagehi (data : Byte) (s : State) : Answer :=
  .next ((if s.cfg.map1mb then s.rowPagehi data else s.portOut portPagehi data).deliver .none)

/-- OUT.L2CTRL (41_port_ops.md R144). -/
def execOutL2ctrl (data : Byte) (s : State) : Answer := .next ((s.rowL2ctrl data).deliver .none)

/-- OUT.REGSEL (41_port_ops.md R145). -/
def execOutRegsel (data : Byte) (s : State) : Answer := .next ((s.rowRegsel data).deliver .none)

/-- OUT.REGDATA.12 (41_port_ops.md R146). -/
def execOutRegdata12 (data : Byte) (s : State) : Answer :=
  .next ((if PortRow.condition s.decodeCtx .regdata12 then s.rowRegdata12 data
    else s.portOut portRegdata data).deliver .none)

/-- OUT.REGDATA.13 (41_port_ops.md R147). -/
def execOutRegdata13 (data : Byte) (s : State) : Answer :=
  .next ((if PortRow.condition s.decodeCtx .regdata13 then s.rowRegdata13 data
    else s.portOut portRegdata data).deliver .none)

/-- OUT.REGDATA.14 (41_port_ops.md R148). -/
def execOutRegdata14 (data : Byte) (s : State) : Answer :=
  .next ((if PortRow.condition s.decodeCtx .regdata14 then s.rowRegdata14 data
    else s.portOut portRegdata data).deliver .none)

/-- OUT.REGDATA.NONE (41_port_ops.md R149): no state change. -/
def execOutRegdataNone (data : Byte) (s : State) : Answer :=
  .next ((if PortRow.condition s.decodeCtx .regdataNone then s else s.portOut portRegdata data).deliver .none)

/-- OUT.RSVD (41_port_ops.md R150): no state change. -/
def execOutRsvd (_data : Byte) (s : State) : Answer := .next (s.deliver .none)

/-- OUT.NONE (41_port_ops.md R150): no state change. -/
def execOutNone (port : Addr) (data : Byte) (s : State) : Answer :=
  .next ((if selectRow s.decodeCtx port = .none then s else s.portOut port data).deliver .none)

/-- IN (41_port_ops.md R151). -/
def execInp (port : Addr) (s : State) : Answer := .next (s.deliver (.byte (portIn port)))

/-- WRITEREG (41_port_ops.md R152): write the select port, then the data port. -/
def execWritereg (reg data : Byte) (s : State) : Answer :=
  .next (((s.portOut portRegsel reg).portOut portRegdata data).deliver .none)

/-- READREG (41_port_ops.md R153): write the select port, then read the data port. -/
def execReadreg (reg : Byte) (s : State) : Answer :=
  .next ((s.portOut portRegsel reg).deliver (.byte (portIn portRegdata)))

end Sys2Proof.Machine
end

