-- ==== Sys2Proof/Machine/VideoOps.lean ====
section
/-! DEFINITION. The video compositor and the flash tick (42_video_ops.md). Frame rows and columns are those of `FB`:
screen row `r` is frame row `r + BORDER_H`, screen column `c` is frame column `c + BORDER_W` (R170). -/

namespace Sys2Proof.Machine

/-- A byte of the base screen, by a direct-bank read (42_video_ops.md R175). -/
def State.baseByte (s : State) (offset : Nat) : Byte := s.ramByte (s.directLoc baseScreenBank offset)

/-- Colour of the visible pixel at screen row `r`, column `c` of the base layer (42_video_ops.md R173, R174). -/
def State.screenPixel (s : State) (r c : Nat) : Rgb :=
  let colours := cellIndices s.flashToggle (s.baseByte (attrAddress r c))
  let index := if bitmapBit (s.baseByte (pixelAddress r c)) c then colours.1 else colours.2
  s.cfg.baseColour[index.toNat]'index.isLt

/-- Colour of the border (42_video_ops.md R176). -/
def State.borderPixel (s : State) : Rgb := s.cfg.borderColour[s.border.toNat]'s.border.isLt

/-- What RENDERBASE draws at a frame position (42_video_ops.md R173). -/
def State.basePixel (s : State) (row col : Nat) : Rgb :=
  if inScreen s.cfg row col then s.screenPixel (row - s.cfg.borderH) (col - s.cfg.borderW) else s.borderPixel

/-- The effect of RENDERBASE: every element of `FB` is written (42_video_ops.md R173). -/
def State.renderBase (s : State) : State :=
  { s with fb := (List.range (fbHeight s.cfg)).map fun row => (List.range (fbWidth s.cfg)).map fun col =>
      s.basePixel row col }

/-- The Layer2 index byte of canvas position `(x, y)` (42_video_ops.md R178). -/
def State.canvasByte (s : State) (x y : Nat) : Byte :=
  s.ramByte ⟨wrapBank s.cfg (s.layer2Start.toNat + (y >>> 6)), BitVec.ofNat 14 (canvasOffset x y)⟩

/-- What RENDERLAYER2 leaves at a frame position that held `px` (42_video_ops.md R177). -/
def State.overlayPixel (s : State) (row col : Nat) (px : Rgb) : Rgb :=
  if inScreen s.cfg row col then
    let index := s.canvasByte (col - s.cfg.borderW) (row - s.cfg.borderH)
    if index = s.transparentIndex then px else rgb332 (s.palette[index.toNat]'index.isLt)
  else px

/-- The effect of RENDERLAYER2: nothing while Layer2 is disabled (42_video_ops.md R177). -/
def State.renderLayer2 (s : State) : State :=
  if s.enable then
    { s with fb := s.fb.mapIdx fun row pixels => pixels.mapIdx fun col px => s.overlayPixel row col px }
  else s

/-- RENDERBASE (42_video_ops.md R173). -/
def execRenderbase (s : State) : Answer := .next (s.renderBase.deliver .none)

/-- RENDERLAYER2 (42_video_ops.md R177). Its meaning outside COMPOSE is decision D34, log entry 20. -/
def execRenderlayer2 (s : State) : Answer := .next (s.renderLayer2.deliver .none)

/-- COMPOSE (42_video_ops.md R179). -/
def execCompose (s : State) : Answer :=
  .next ((if s.enable then s.renderBase.renderLayer2 else s.renderBase).deliver .none)

/-- TICK (42_video_ops.md R181). -/
def execTick (s : State) : Answer := .next (s.flashTick.deliver .none)

/-- ACKREDRAW (42_video_ops.md R183). -/
def execAckredraw (s : State) : Answer := .next (s.clearRedraw.deliver .none)

end Sys2Proof.Machine
end

