-- ==== Sys2Proof/Machine/Dispatch.lean ====
section
/-! DEFINITION. One arm per operation, in the order of spec/opcode_table.json. -/

namespace Sys2Proof.Machine

def exec (i : Instr) (s : State) : Host.Outcome State Fault Refusal :=
  match i with
  -- memory (40_memory_ops.md)
  | .xlat addr w => Sys2Proof.Machine.execXlat addr w s
  | .rdb addr => Sys2Proof.Machine.execRdb addr s
  | .wrb addr data => Sys2Proof.Machine.execWrb addr data s
  | .rdbk bank offset => Sys2Proof.Machine.execRdbk bank offset s
  | .wrbk bank offset data => Sys2Proof.Machine.execWrbk bank offset data s
  | .rdw addr => Sys2Proof.Machine.execRdw addr s
  | .wrw addr data => Sys2Proof.Machine.execWrw addr data s
  | .bulkwr addr bytes => Sys2Proof.Machine.execBulkwr addr bytes s
  | .bulkwrbk bank offset bytes => Sys2Proof.Machine.execBulkwrbk bank offset bytes s
  -- ports (41_port_ops.md)
  | .out port data => Sys2Proof.Machine.execOut port data s
  | .outBorder portHigh data => Sys2Proof.Machine.execOutBorder portHigh data s
  | .outPagelo data => Sys2Proof.Machine.execOutPagelo data s
  | .outPagehi data => Sys2Proof.Machine.execOutPagehi data s
  | .outL2ctrl data => Sys2Proof.Machine.execOutL2ctrl data s
  | .outRegsel data => Sys2Proof.Machine.execOutRegsel data s
  | .outRegdata12 data => Sys2Proof.Machine.execOutRegdata12 data s
  | .outRegdata13 data => Sys2Proof.Machine.execOutRegdata13 data s
  | .outRegdata14 data => Sys2Proof.Machine.execOutRegdata14 data s
  | .outRegdataNone data => Sys2Proof.Machine.execOutRegdataNone data s
  | .outRsvd data => Sys2Proof.Machine.execOutRsvd data s
  | .outNone port data => Sys2Proof.Machine.execOutNone port data s
  | .inp port => Sys2Proof.Machine.execInp port s
  | .writereg reg data => Sys2Proof.Machine.execWritereg reg data s
  | .readreg reg => Sys2Proof.Machine.execReadreg reg s
  -- video (42_video_ops.md)
  | .renderbase => Sys2Proof.Machine.execRenderbase s
  | .renderlayer2 => Sys2Proof.Machine.execRenderlayer2 s
  | .compose => Sys2Proof.Machine.execCompose s
  | .tick => Sys2Proof.Machine.execTick s
  | .ackredraw => Sys2Proof.Machine.execAckredraw s
  -- checksums (43_checksum_ops.md)
  | .crcInit => Sys2Proof.Machine.execCrcInit s
  | .crcByte b => Sys2Proof.Machine.execCrcByte b s
  | .crcFinal => Sys2Proof.Machine.execCrcFinal s
  | .crc32 bytes => Sys2Proof.Machine.execCrc32 bytes s
  | .adlerInit => Sys2Proof.Machine.execAdlerInit s
  | .adlerByte b => Sys2Proof.Machine.execAdlerByte b s
  | .adlerFinal => Sys2Proof.Machine.execAdlerFinal s
  | .adler32 bytes => Sys2Proof.Machine.execAdler32 bytes s
  -- stored blocks and containers (44_deflate_zlib_ops.md, 45_png_nim_ops.md)
  | .storedBlock final data => Sys2Proof.Machine.execStoredBlock final data s
  | .storedStream raw => Sys2Proof.Machine.execStoredStream raw s
  | .zlibWrap raw => Sys2Proof.Machine.execZlibWrap raw s
  | .pngChunk type data => Sys2Proof.Machine.execPngChunk type data s
  | .pngEncode w h idx pal t => Sys2Proof.Machine.execPngEncode w h idx pal t s
  | .nimWrite w h img => Sys2Proof.Machine.execNimWrite w h img s
  | .nimRead bytes => Sys2Proof.Machine.execNimRead bytes s

end Sys2Proof.Machine
end

