-- ==== Sys2Proof/Machine/Step.lean ====
section
/-! DEFINITION. One step: the host's next transaction is decoded and performed (decision D1, 20_memory.md R74). -/

namespace Sys2Proof.Machine

/-- The next element of the host's list is taken, decoded in the context of the state, and performed. With the list
empty nothing is issued and nothing changes (log entry 1). -/
def step (s : State) : Host.Outcome State Fault Refusal :=
  match s.pending with
  | [] => .next s
  | t :: rest =>
    match decode s.decodeCtx t with
    | .error e => .refused (.undecodable e)
    | .ok i =>
      if i.wellFormed then exec i { s with pending := rest } else .refused (.operandsOutOfRange i.mnemonic)

/-- `s` with the port write of word `w` as the next transaction the host issues. -/
def State.withFetchWord (s : State) (_nbits w : Nat) : State :=
  { s with pending := portWriteOfWord w :: s.pending }

end Sys2Proof.Machine
end

