-- ==== Sys2Proof/Safety.lean ====
section
/-! DEFINITION. The words the claims are stated in: the invariants of 10_state.md R44, runs of several operations, what
it means that only the host's view changed, and a reader of stored-block streams written independently of the encoder. -/

namespace Sys2Proof.Machine

/-- Invariants of a context (10_state.md R24, R34, R37, R39, R44; 20_memory.md R73). The bounds of R44 (c) are the
widths of the fields of `State`. -/
structure State.Inv (s : State) : Prop where
  /-- Keys of RAM strictly rise and no listed byte is 0 (DESIGN CHOICE, log entry 10). -/
  ramCanonical : Memory.wf s.ram
  /-- Every listed byte lies in a page of the bank table (R23; decision D6, log entry 13). -/
  ramInRange : ∀ c ∈ s.ram, c.1 < s.cfg.nbanks * pageSize
  /-- R44 (a) -/
  slotsInRange : ∀ i : BitVec 2, s.slotBank i < s.cfg.nbanks
  /-- Slots 0, 1 and 2 hold 0, 5, 2 for the life of the context (R24, 20_memory.md R73). -/
  slotsFixed : s.slotBank 0 = 0 ∧ s.slotBank 1 = 5 ∧ s.slotBank 2 = 2
  /-- The bank of slot 3 carries the latched high bits (41_port_ops.md R143, 70_reset_and_hazards.md R283). -/
  slot3High : s.slotBank 3 / 8 = s.pagingHigh.toNat
  /-- Without the 1MB map no paging write has an effect (41_port_ops.md R142, R143; decision D4, log
  entry 14). -/
  noPaging : s.cfg.map1mb = false → s.pagingLow = 0 ∧ s.pagingHigh = 0 ∧ s.slotBank 3 = 0
  /-- R34 (decision D12, log entry 15). -/
  paletteIdentity : s.palette = identityPalette
  /-- R37 -/
  frameHeight : s.fb.length = fbHeight s.cfg
  /-- R37 -/
  frameWidth : ∀ row ∈ s.fb, row.length = fbWidth s.cfg
  /-- R39 -/
  adlerInRange : s.s1.toNat < adlerMod ∧ s.s2.toNat < adlerMod

/-- `FB[row][col]`, none outside the frame (10_state.md R37). -/
def State.fbPixel (s : State) (row col : Nat) : Option Rgb := s.fb[row]?.bind fun pixels => pixels[col]?

/-- Every item of 10_state.md R20 is unchanged; only the model's own fields may differ. -/
def State.sameBlock (s t : State) : Prop :=
  t = { s with pending := t.pending, result := t.result, draws := t.draws }

/-- Several operations, one after another; the first stop ends the run. -/
def execAll : List Instr → State → Answer
  | [], s => .next s
  | i :: is, s =>
    match exec i s with
    | .next t => execAll is t
    | .fault r => .fault r
    | .refused r => .refused r

end Sys2Proof.Machine

namespace Sys2Proof

/-- The operations that write RAM (10_state.md R23, R47). -/
def Instr.writesRam : Instr → Bool
  | .wrb _ _ | .wrbk _ _ _ | .wrw _ _ | .bulkwr _ _ | .bulkwrbk _ _ _ => true
  | _ => false

/-- The port writes: OUT, its rows, and the composites that issue them (10_state.md R47). -/
def Instr.writesPorts : Instr → Bool
  | .out _ _ | .outBorder _ _ | .outPagelo _ | .outPagehi _ | .outL2ctrl _ | .outRegsel _ | .outRegdata12 _
  | .outRegdata13 _ | .outRegdata14 _ | .outRegdataNone _ | .outRsvd _ | .outNone _ _ | .writereg _ _
  | .readreg _ => true
  | _ => false

/-- The operations that write `FB` (10_state.md R37, R47). -/
def Instr.writesFrame : Instr → Bool
  | .renderbase | .renderlayer2 | .compose => true
  | _ => false

/-- The operations that write the running checksums (10_state.md R38, R39). -/
def Instr.writesSums : Instr → Bool
  | .crcInit | .crcByte _ | .adlerInit | .adlerByte _ => true
  | _ => false

end Sys2Proof

namespace Sys2Proof.Machine

/-- A reader of stored blocks: the data of the blocks up to the final one, and what follows it. It follows the block
format of 30_encoding.md R103 and shares no definition with the encoder. -/
def inflateStored : Nat → List Byte → Option (List Byte × List Byte)
  | 0, _ => none
  | fuel + 1, flag :: l0 :: l1 :: n0 :: n1 :: rest =>
    let len := l0.toNat + 256 * l1.toNat
    if n0.toNat + 256 * n1.toNat + len ≠ 65535 then none
    else if rest.length < len then none
    else if flag = 1 then some (rest.take len, rest.drop len)
    else if flag = 0 then
      (inflateStored fuel (rest.drop len)).map fun p => (rest.take len ++ p.1, p.2)
    else none
  | _ + 1, _ => none

/-- A reader of zlib streams of stored blocks (30_encoding.md R104): header bytes, blocks, and a trailer of four bytes
that is the Adler-32 of the data, most significant byte first. -/
def inflateZlib : List Byte → Option (List Byte)
  | 0x78 :: 0x01 :: body =>
    match inflateStored body.length body with
    | some (data, [a, b, c, d]) => if a ++ b ++ c ++ d = adler32 data then some data else none
    | _ => none
  | _ => none

end Sys2Proof.Machine
end

