-- ==== Sys2Proof/Certificates/Slice0/Obligations.lean ====
section
/-! DEFINITION. The statements for the provers. Each docstring names the rule or the section of spec/ it formalises, and
the log entries and decisions it rests on. -/

open Sys2Proof Sys2Proof.Machine

/-! ### Decoding and the step -/

/-- The host's next transaction, where it is a well-formed operation, is performed on the state with that element
taken off the list (decision D1; that the list is a field of the state is the model's choice, log entry 1; that a record
is decoded when it is performed is deduced, log entry 3). -/
def Obligations.StepPerformsTheNextTransaction : Prop :=
  ∀ (s : State) (t : Transaction) (rest : List Transaction) (i : Instr),
    s.pending = t :: rest → decode s.decodeCtx t = .ok i → i.wellFormed = true →
      step s = exec i { s with pending := rest }

/-- Every other step. An empty list leaves the state as it is, and a record that is no operation is refused by name:
both are the model's choice (log entries 1, 2). Operands out of range are refused by name: for PNG_ENCODE and
STORED_BLOCK as 93_implementation_defined.md U9 and U13 say (decisions D35, D22) and for PNG_CHUNK by the range of
45_png_nim_ops.md; for a palette or a NIM image of another length that is the model's choice (log entry 16). -/
def Obligations.StepIdlesOrRefusesOtherwise : Prop :=
  (∀ s : State, s.pending = [] → step s = .next s) ∧
  (∀ (s : State) (t : Transaction) (rest : List Transaction) (e : DecodeError),
    s.pending = t :: rest → decode s.decodeCtx t = .error e → step s = .refused (.undecodable e)) ∧
  (∀ (s : State) (t : Transaction) (rest : List Transaction) (i : Instr),
    s.pending = t :: rest → decode s.decodeCtx t = .ok i → i.wellFormed = false →
      step s = .refused (.operandsOutOfRange i.mnemonic))

/-- The port numbers of the decode map, written out, select their rows (30_encoding.md, the decode map). -/
def Obligations.PortNumbersDecodeToTheirRows : Prop :=
  decode ⟨true, true, 0x12⟩ ⟨.out, [.num 0b0000000011111110, .num 7]⟩ = .ok (.outBorder 0x00 7) ∧
  decode ⟨false, false, 0⟩ ⟨.out, [.num 0b0001001011111110, .num 5]⟩ = .ok (.outBorder 0x12 5) ∧
  decode ⟨true, true, 0⟩ ⟨.out, [.num 0b0111111111111101, .num 3]⟩ = .ok (.outPagelo 3) ∧
  decode ⟨false, true, 0⟩ ⟨.out, [.num 0b0111111111111101, .num 3]⟩ = .ok (.outNone 0x7FFD 3) ∧
  decode ⟨true, true, 0⟩ ⟨.out, [.num 0b1101111111111101, .num 1]⟩ = .ok (.outPagehi 1) ∧
  decode ⟨true, true, 0⟩ ⟨.out, [.num 0b0001001000111011, .num 11]⟩ = .ok (.outL2ctrl 11) ∧
  decode ⟨true, true, 0⟩ ⟨.out, [.num 0b0010010000111011, .num 18]⟩ = .ok (.outRegsel 18) ∧
  decode ⟨true, true, 0x12⟩ ⟨.out, [.num 0b0010010100111011, .num 9]⟩ = .ok (.outRegdata12 9) ∧
  decode ⟨true, true, 0x13⟩ ⟨.out, [.num 0b0010010100111011, .num 12]⟩ = .ok (.outRegdata13 12) ∧
  decode ⟨true, true, 0x14⟩ ⟨.out, [.num 0b0010010100111011, .num 227]⟩ = .ok (.outRegdata14 227) ∧
  decode ⟨true, false, 0x14⟩ ⟨.out, [.num 0b0010010100111011, .num 227]⟩ = .ok (.outRegdataNone 227) ∧
  decode ⟨true, true, 0⟩ ⟨.out, [.num 0b0011000000111011, .num 85]⟩ = .ok (.outRsvd 85) ∧
  decode ⟨true, true, 0⟩ ⟨.out, [.num 0x1234, .num 85]⟩ = .ok (.outNone 0x1234 85)

/-- Decode and encode agree for every well-formed operation, with every operand at every value its field admits, in
every context that selects the operation's row. A bare `out` has no row yet and is the next statement but two. The
shape of a record, a kind with a list of operands, is the model's choice (log entry 2). -/
def Obligations.DecodeOfEncodeIsTheInstruction : Prop :=
  ∀ (ctx : DecodeCtx) (i : Instr), i.wellFormed = true → i.selectedIn ctx = true → decode ctx (encode i) = .ok i

/-- Every record that decodes is the record of the operation it decodes to, and the context selects that operation: no
two records are one operation, and no field of a record is dropped. That an ill-shaped record is refused and not
repaired is the model's choice (log entry 2). -/
def Obligations.EncodeOfDecodeIsTheRecord : Prop :=
  ∀ (ctx : DecodeCtx) (t : Transaction) (i : Instr),
    decode ctx t = .ok i → encode i = t ∧ i.selectedIn ctx = true

/-- The row that the tests of 41_port_ops.md section OUT select is the one row whose mask, match and condition accept
the port number (30_encoding.md section 3); OUT.NONE is selected when no row accepts it. -/
def Obligations.SelectedRowIsTheOneTheMapAccepts : Prop :=
  ∀ (ctx : DecodeCtx) (port : Addr) (row : PortRow),
    (row ≠ .none → (selectRow ctx port = row ↔ row.accepts ctx port = true)) ∧
    (selectRow ctx port = .none ↔ ∀ other : PortRow, other ≠ .none → other.accepts ctx port = false)

/-- OUT performs the effect of the row its port number selects, with no result, and decoding the write first makes no
difference (41_port_ops.md, OUT and its rows; that `subBank` may hold 3 is decision D9, that the other rows request no
redraw is decision D31, log entry 20). -/
def Obligations.OutPerformsItsSelectedRow : Prop :=
  ∀ (port : Addr) (data : Byte) (s : State),
    exec (.out port data) s = exec (decodePortWrite s.decodeCtx port data) s ∧
    exec (.out port data) s = .next { (match selectRow s.decodeCtx port with
      | .border => { s with border := BitVec.ofNat 3 (data.toNat % 8), redrawRequest := true }
      | .pagelo => { s with pagingLow := BitVec.ofNat 3 (data.toNat % 8) }
      | .pagehi => { s with
          pagingHigh := BitVec.ofNat 3 (data.toNat % 8)
          slot := s.slot.set 3 (BitVec.ofNat 6 (s.pagingLow.toNat + data.toNat % 8 * 8)) }
      | .l2ctrl => { s with
          subBank := BitVec.ofNat 2 (data.toNat / 64)
          shadowEnable := data.getLsbD 3
          enable := data.getLsbD 1
          write0Enable := data.getLsbD 0
          redrawRequest := true }
      | .regsel => { s with regSelect := data }
      | .regdata12 => { s with bankStart := BitVec.ofNat 5 (data.toNat % 32), redrawRequest := true }
      | .regdata13 => { s with shadowBankStart := BitVec.ofNat 5 (data.toNat % 32), redrawRequest := true }
      | .regdata14 => { s with transparentIndex := data }
      | .regdataNone | .rsvd | .none => s) with result := .none }

/-- A decoded row performed where its condition does not hold is the port write it is (41_port_ops.md, the corner
cases of OUT.PAGELO and OUT.REGDATA.14; that the operation may be issued so at all is the model's choice, log entry
4); where it holds, OUT on its port performs it. -/
def Obligations.RowOutsideItsConditionIsThePortWrite : Prop :=
  ∀ (port : Addr) (hi data : Byte) (s : State),
    exec (.outBorder hi data) s = exec (.out (hi ++ (0xFE : Byte)) data) s ∧
    exec (.outPagelo data) s = exec (.out 0x7FFD data) s ∧
    exec (.outPagehi data) s = exec (.out 0xDFFD data) s ∧
    exec (.outL2ctrl data) s = exec (.out 0x123B data) s ∧
    exec (.outRegsel data) s = exec (.out 0x243B data) s ∧
    exec (.outRegdata12 data) s = exec (.out 0x253B data) s ∧
    exec (.outRegdata13 data) s = exec (.out 0x253B data) s ∧
    exec (.outRegdata14 data) s = exec (.out 0x253B data) s ∧
    exec (.outRegdataNone data) s = exec (.out 0x253B data) s ∧
    exec (.outRsvd data) s = exec (.out 0x303B data) s ∧
    exec (.outNone port data) s = exec (.out port data) s

/-! ### Memory operations -/

/-- XLAT: the bank of the slot, or the redirect bank for a write to slot 1 under `write0Enable`, and the low 14 bits
of the address; nothing changes (20_memory.md section 4, 40_memory_ops.md XLAT; `WrapBank` is decision D6, log entry
13). -/
def Obligations.XlatReportsBankAndOffset : Prop :=
  ∀ (a : Addr) (w : Bool) (s : State),
    exec (.xlat a w) s = .next { s with
      result := .location {
        bank :=
          if w = true ∧ s.write0Enable = true ∧ a.toNat / 16384 = 1 then
            ((if s.shadowEnable then s.shadowBankStart.toNat else s.bankStart.toNat) + s.subBank.toNat) % s.cfg.nbanks
          else s.slotBank (BitVec.ofNat 2 (a.toNat / 16384))
        offset := BitVec.ofNat 14 (a.toNat % 16384) } }

/-- RDB: the byte of the bank that the address's slot maps, never redirected; nothing changes (40_memory_ops.md R121).
-/
def Obligations.RdbReadsTheBankTheSlotMaps : Prop :=
  ∀ (a : Addr) (s : State),
    exec (.rdb a) s = .next { s with
      result := .byte (s.ramByte
        ⟨s.slotBank (BitVec.ofNat 2 (a.toNat / 16384)), BitVec.ofNat 14 (a.toNat % 16384)⟩) }

/-- WRB stores its byte at the translated location and changes nothing else: no other byte of RAM, no flag
(40_memory_ops.md WRB; the redirect bank rests on decision D6, log entry 13). -/
def Obligations.WrbStoresOneByte : Prop :=
  ∀ (a : Addr) (v : Byte) (s : State), ∃ t : State,
    exec (.wrb a v) s = .next t ∧ t = { s with ram := t.ram, result := .none } ∧
    ∀ l : Loc, t.ramByte l = if l = s.translate a true then v else s.ramByte l

/-- The three properties the source states of translation and memory (20_memory.md R79). The bank is the slot's for
every read, and for every write that the redirect does not capture. -/
def Obligations.SourcePropertiesOfMemory : Prop :=
  (∀ (a : Addr) (w : Bool) (s : State), ∃ l : Loc,
    exec (.xlat a w) s = .next { s with result := .location l } ∧ l.offset.toNat = a.toNat % 16384 ∧
    (w = false ∨ s.redirects a = false → l.bank = s.slotBank (BitVec.ofNat 2 (a.toNat / 16384)))) ∧
  (∀ (a : Addr) (v : Byte) (s : State), s.redirects a = false → ∃ t : State,
    exec (.wrb a v) s = .next t ∧ exec (.rdb a) t = .next { t with result := .byte v }) ∧
  (∀ (bs : List Byte) (s : State), bs.length = 100 →
    exec (.bulkwr 65500 bs) s = .next { s with result := .failed (.boundsExceeded 65500 100) })

/-- A redirected write is not what a later read of the address returns, unless the redirect bank is the bank slot 1
maps (20_memory.md section 4, the redirect; 70_reset_and_hazards.md, redirect asymmetry). -/
def Obligations.RedirectedWriteIsReadBackOnlyFromTheSameBank : Prop :=
  ∀ (a : Addr) (v : Byte) (s : State), s.redirects a = true → ∃ t : State,
    exec (.wrb a v) s = .next t ∧
    exec (.rdb a) t = .next { t with
      result := .byte (if s.redirectBank = s.slotBank 1 then v else s.ramByte ⟨s.slotBank 1, addrOffset a⟩) }

/-- RDBK and WRBK: bank modulo NBANKS, offset masked to 14 bits; the read changes nothing, the write nothing but its
byte (40_memory_ops.md RDBK, WRBK; decisions D6, D33, log entry 13). -/
def Obligations.DirectAccessReachesTheNamedBank : Prop :=
  ∀ (b o : Nat) (v : Byte) (s : State),
    exec (.rdbk b o) s = .next { s with
      result := .byte (s.ramByte ⟨b % s.cfg.nbanks, BitVec.ofNat 14 (o % 16384)⟩) } ∧
    ∃ t : State, exec (.wrbk b o v) s = .next t ∧ t = { s with ram := t.ram, result := .none } ∧
      ∀ l : Loc, t.ramByte l =
        if l = ⟨b % s.cfg.nbanks, BitVec.ofNat 14 (o % 16384)⟩ then v else s.ramByte l

/-- RDW: two byte reads, the second at (a + 1) mod 65536, low byte first; nothing changes (40_memory_ops.md RDW; the
wrap is decision D7, log entry 13). -/
def Obligations.RdwJoinsTwoByteReads : Prop :=
  ∀ (a : Addr) (s : State), ∃ lo hi : Byte,
    exec (.rdb a) s = .next { s with result := .byte lo } ∧
    exec (.rdb (BitVec.ofNat 16 ((a.toNat + 1) % 65536))) s = .next { s with result := .byte hi } ∧
    exec (.rdw a) s = .next { s with result := .word (BitVec.ofNat 16 (hi.toNat * 256 + lo.toNat)) }

/-- WRW is WRB of the low byte, then WRB of the high byte at (a + 1) mod 65536; the two locations differ, every other
byte of RAM and every other item is unchanged (40_memory_ops.md WRW; decisions D6, D7, log entry 13). -/
def Obligations.WrwIsTwoByteWrites : Prop :=
  ∀ (a : Addr) (v : BitVec 16) (s : State), ∃ t : State,
    exec (.wrw a v) s = .next t ∧
    execAll [.wrb a (BitVec.ofNat 8 (v.toNat % 256)),
      .wrb (BitVec.ofNat 16 ((a.toNat + 1) % 65536)) (BitVec.ofNat 8 (v.toNat / 256))] s = .next t ∧
    t = { s with ram := t.ram, result := .none } ∧
    s.translate a true ≠ s.translate (a + 1) true ∧
    ∀ l : Loc, t.ramByte l =
      if l = s.translate a true then BitVec.ofNat 8 (v.toNat % 256)
      else if l = s.translate (a + 1) true then BitVec.ofNat 8 (v.toNat / 256)
      else s.ramByte l

/-- A word written and read back at addresses the redirect does not capture is the word (20_memory.md section 2). -/
def Obligations.WordWrittenIsTheWordRead : Prop :=
  ∀ (a : Addr) (v : BitVec 16) (s : State), s.redirects a = false → s.redirects (a + 1) = false → ∃ t : State,
    exec (.wrw a v) s = .next t ∧ exec (.rdw a) t = .next { t with result := .word v }

/-- BULKWR inside the address space: each byte goes where its own address translates (where two addresses reach one
location, the later byte stands), every other byte of RAM is unchanged, and a redraw is requested, also for no bytes
(40_memory_ops.md BULKWR; the redirect bank rests on decision D6, log entry 13). -/
def Obligations.BulkwrWritesEachByteThroughTranslation : Prop :=
  ∀ (a : Addr) (bs : List Byte) (s : State), a.toNat + bs.length ≤ 65536 → ∃ t : State,
    exec (.bulkwr a bs) s = .next t ∧ t = { s with ram := t.ram, redrawRequest := true, result := .ok } ∧
    (∀ l : Loc, (∀ i, i < bs.length → s.translate (BitVec.ofNat 16 (a.toNat + i)) true ≠ l) →
      t.ramByte l = s.ramByte l) ∧
    (∀ (i : Nat) (h : i < bs.length),
      (∀ j, i < j → j < bs.length →
        s.translate (BitVec.ofNat 16 (a.toNat + j)) true ≠ s.translate (BitVec.ofNat 16 (a.toNat + i)) true) →
      t.ramByte (s.translate (BitVec.ofNat 16 (a.toNat + i)) true) = bs[i])

/-- BULKWRBK inside the page: the bytes stand at consecutive offsets of the bank, every other byte and every other
item is unchanged, no redraw is requested (40_memory_ops.md BULKWRBK; decisions D6, D31, log entries 13, 20). -/
def Obligations.BulkwrbkWritesOnePage : Prop :=
  ∀ (b o : Nat) (bs : List Byte) (s : State), o + bs.length ≤ 16384 → ∃ t : State,
    exec (.bulkwrbk b o bs) s = .next t ∧ t = { s with ram := t.ram, result := .ok } ∧
    (∀ l : Loc, (∀ i, i < bs.length → (⟨b % s.cfg.nbanks, BitVec.ofNat 14 (o + i)⟩ : Loc) ≠ l) →
      t.ramByte l = s.ramByte l) ∧
    (∀ (i : Nat) (h : i < bs.length), t.ramByte ⟨b % s.cfg.nbanks, BitVec.ofNat 14 (o + i)⟩ = bs[i])

/-- BoundsExceeded: a bulk write past the end of its space writes nothing and requests no redraw; otherwise it does
not fail. It depends on the operands alone (60_exceptions.md R261). -/
def Obligations.BulkWritesPastTheEndFailWhole : Prop :=
  (∀ (a : Addr) (bs : List Byte) (s : State), a.toNat + bs.length > 65536 →
    exec (.bulkwr a bs) s = .next { s with result := .failed (.boundsExceeded a.toNat bs.length) }) ∧
  (∀ (b o : Nat) (bs : List Byte) (s : State), o + bs.length > 16384 →
    exec (.bulkwrbk b o bs) s = .next { s with result := .failed (.boundsExceeded o bs.length) }) ∧
  (∀ (a : Addr) (bs : List Byte) (s : State), a.toNat + bs.length ≤ 65536 →
    ∃ t : State, exec (.bulkwr a bs) s = .next t ∧ t.result = .ok) ∧
  (∀ (b o : Nat) (bs : List Byte) (s : State), o + bs.length ≤ 16384 →
    ∃ t : State, exec (.bulkwrbk b o bs) s = .next t ∧ t.result = .ok)

/-! ### Port operations -/

/-- OUT.BORDER, OUT.L2CTRL and OUT.REGSEL replace their registers by the fields of the data byte; the first two
request a redraw (41_port_ops.md, OUT.BORDER, OUT.L2CTRL, OUT.REGSEL; that `subBank` may hold 3 is decision D9, that
ignored bits may hold anything is decision D38, that OUT.REGSEL requests no redraw is decision D31, log entry 20). -/
def Obligations.DirectPortsWriteTheirRegisters : Prop :=
  ∀ (hi v : Byte) (s : State),
    exec (.outBorder hi v) s =
      .next { s with border := BitVec.ofNat 3 (v.toNat % 8), redrawRequest := true, result := .none } ∧
    exec (.outL2ctrl v) s = .next { s with
      subBank := BitVec.ofNat 2 (v.toNat / 64)
      shadowEnable := decide (v.toNat / 8 % 2 = 1)
      enable := decide (v.toNat / 2 % 2 = 1)
      write0Enable := decide (v.toNat % 2 = 1)
      redrawRequest := true
      result := .none } ∧
    exec (.outRegsel v) s = .next { s with regSelect := v, result := .none }

/-- OUT.PAGELO latches the low paging bits and leaves `slot[3]`; OUT.PAGEHI latches the high ones and remaps slot 3 to
low + high * 8; with no 1MB map neither changes anything (41_port_ops.md, OUT.PAGELO, OUT.PAGEHI; that neither
requests a redraw is decision D31, log entry 20). -/
def Obligations.PagingIsAppliedByTheHighWrite : Prop :=
  ∀ (v : Byte) (s : State),
    exec (.outPagelo v) s = .next
      (if s.cfg.map1mb then { s with pagingLow := BitVec.ofNat 3 (v.toNat % 8), result := .none }
       else { s with result := .none }) ∧
    ∃ t : State, exec (.outPagehi v) s = .next t ∧
      (s.cfg.map1mb = false → t = { s with result := .none }) ∧
      (s.cfg.map1mb = true →
        t = { s with pagingHigh := BitVec.ofNat 3 (v.toNat % 8), slot := t.slot, result := .none } ∧
        t.slotBank 3 = s.pagingLow.toNat + v.toNat % 8 * 8 ∧
        ∀ i : BitVec 2, i ≠ 3 → t.slotBank i = s.slotBank i)

/-- OUT.REGDATA.12, .13 and .14 write the indirect register that is latched: the Layer2 bank starts, with a redraw
request, and the transparent index, only where the register exists and without one; the selection stays latched
(41_port_ops.md, OUT.REGDATA.12, .13, .14; that the 0x14 write makes no request is decision D31, log entry 20). -/
def Obligations.RegdataWritesTheLatchedRegister : Prop :=
  (∀ (v : Byte) (s : State), s.regSelect = 0x12 →
    exec (.outRegdata12 v) s =
      .next { s with bankStart := BitVec.ofNat 5 (v.toNat % 32), redrawRequest := true, result := .none }) ∧
  (∀ (v : Byte) (s : State), s.regSelect = 0x13 →
    exec (.outRegdata13 v) s =
      .next { s with shadowBankStart := BitVec.ofNat 5 (v.toNat % 32), redrawRequest := true, result := .none }) ∧
  (∀ (v : Byte) (s : State), s.regSelect = 0x14 →
    exec (.outRegdata14 v) s = .next
      (if s.cfg.hasL2Transp then { s with transparentIndex := v, result := .none } else { s with result := .none }))

/-- Data writes to an absent indirect register, writes to the reserved port, and writes to any port no row selects are
accepted and change nothing (41_port_ops.md R149, R150). -/
def Obligations.WritesWithoutEffectChangeNothing : Prop :=
  (∀ (v : Byte) (s : State), s.regSelect ≠ 0x12 → s.regSelect ≠ 0x13 →
    ¬(s.regSelect = 0x14 ∧ s.cfg.hasL2Transp = true) → exec (.outRegdataNone v) s = .next { s with result := .none }) ∧
  (∀ (v : Byte) (s : State), exec (.outRsvd v) s = .next { s with result := .none }) ∧
  (∀ (p : Addr) (v : Byte) (s : State), p.toNat % 256 ≠ 0xFE → p ≠ 0x123B → p ≠ 0x243B → p ≠ 0x253B → p ≠ 0x303B →
    (s.cfg.map1mb = true → p ≠ 0x7FFD ∧ p ≠ 0xDFFD) → exec (.outNone p v) s = .next { s with result := .none })

/-- IN returns 0 for every port and changes nothing (41_port_ops.md R151). -/
def Obligations.InReturnsZero : Prop :=
  ∀ (p : Addr) (s : State), exec (.inp p) s = .next { s with result := .byte 0 }

/-- WRITEREG is the select write, then the data write, with its effect written out for every index (41_port_ops.md
WRITEREG; that the select write and the 0x14 data write make no redraw request is decision D31, log entry 20). -/
def Obligations.WriteregSelectsThenWrites : Prop :=
  ∀ (r v : Byte) (s : State),
    exec (.writereg r v) s = execAll [.out 0x243B r, .out 0x253B v] s ∧
    exec (.writereg r v) s = .next
      (if r = 0x12 then { s with
          regSelect := r, bankStart := BitVec.ofNat 5 (v.toNat % 32), redrawRequest := true, result := .none }
       else if r = 0x13 then { s with
          regSelect := r, shadowBankStart := BitVec.ofNat 5 (v.toNat % 32), redrawRequest := true, result := .none }
       else if r = 0x14 ∧ s.cfg.hasL2Transp = true then { s with
          regSelect := r, transparentIndex := v, result := .none }
       else { s with regSelect := r, result := .none })

/-- READREG is the select write, then a read of the data port: it leaves the index latched and returns 0
(41_port_ops.md READREG; that the value is 0 is derived there from IN). -/
def Obligations.ReadregSelectsAndReturnsZero : Prop :=
  ∀ (r : Byte) (s : State),
    exec (.readreg r) s = execAll [.out 0x243B r, .inp 0x253B] s ∧
    exec (.readreg r) s = .next { s with regSelect := r, result := .byte 0 }

/-! ### Video -/

/-- The address formulas as bit fields, and their ranges on the screen (42_video_ops.md section 2). -/
def Obligations.BaseLayerAddressesAreBitFields : Prop :=
  ∀ r c : BitVec 8,
    pixelAddress r.toNat c.toNat =
      (r.extractLsb' 6 2 ++ r.extractLsb' 0 3 ++ r.extractLsb' 3 3 ++ c.extractLsb' 3 5).toNat ∧
    attrAddress r.toNat c.toNat = 0x1800 + (r.extractLsb' 3 5 ++ c.extractLsb' 3 5).toNat ∧
    (r.toNat < 192 → pixelAddress r.toNat c.toNat < 0x1800 ∧ attrAddress r.toNat c.toNat < 0x1B00)

/-- RENDERBASE writes every element of the frame and nothing else: the border colour outside the screen; inside it the
ink or paper colour by the bitmap bit, most significant first, with the two swapped in a flashing cell while the
toggle is active (42_video_ops.md section 2; the bank is decision D13, log entry 17). -/
def Obligations.RenderbaseDrawsEveryPixel : Prop :=
  ∀ s : State, ∃ t : State,
    exec .renderbase s = .next t ∧ t = { s with fb := t.fb, result := .none } ∧
    (∀ row col : Nat, ¬(row < 192 + 2 * s.cfg.borderH ∧ col < 256 + 2 * s.cfg.borderW) → t.fbPixel row col = none) ∧
    (∀ row col : Nat, row < 192 + 2 * s.cfg.borderH → col < 256 + 2 * s.cfg.borderW →
      ¬(s.cfg.borderH ≤ row ∧ row < s.cfg.borderH + 192 ∧ s.cfg.borderW ≤ col ∧ col < s.cfg.borderW + 256) →
      t.fbPixel row col = some (s.cfg.borderColour[s.border.toNat]'s.border.isLt)) ∧
    (∀ r c : Nat, r < 192 → c < 256 →
      let bmp := s.ramByte ⟨5 % s.cfg.nbanks, BitVec.ofNat 14 (pixelAddress r c)⟩
      let attr := s.ramByte ⟨5 % s.cfg.nbanks, BitVec.ofNat 14 (attrAddress r c)⟩
      let ink := attr.toNat % 8 + attr.toNat / 64 % 2 * 8
      let paper := attr.toNat / 8 % 8
      let swap := attr.getLsbD 7 && s.flashToggle
      let index := if bmp.getLsbD (7 - c % 8) != swap then ink else paper
      t.fbPixel (r + s.cfg.borderH) (c + s.cfg.borderW) = s.cfg.baseColour[index]?)

/-- RENDERLAYER2: with Layer2 disabled nothing changes; enabled, each visible pixel whose index byte is not the
transparent index gets the colour of its palette byte, every other pixel stays, and nothing else changes
(42_video_ops.md section 3; decisions D6, D17, D18, log entries 13, 18). -/
def Obligations.Renderlayer2OverlaysOpaquePixels : Prop :=
  ∀ s : State, ∃ t : State,
    exec .renderlayer2 s = .next t ∧ t = { s with fb := t.fb, result := .none } ∧
    (s.enable = false → t.fb = s.fb) ∧
    (∀ row col : Nat,
      ¬(s.cfg.borderH ≤ row ∧ row < s.cfg.borderH + 192 ∧ s.cfg.borderW ≤ col ∧ col < s.cfg.borderW + 256) →
      t.fbPixel row col = s.fbPixel row col) ∧
    (∀ x y : Nat, x < 256 → y < 192 → s.enable = true →
      let start := if s.shadowEnable then s.shadowBankStart.toNat else s.bankStart.toNat
      let index := s.ramByte ⟨(start + y / 64) % s.cfg.nbanks, BitVec.ofNat 14 (y % 64 * 256 + x)⟩
      t.fbPixel (y + s.cfg.borderH) (x + s.cfg.borderW) =
        (s.fbPixel (y + s.cfg.borderH) (x + s.cfg.borderW)).map fun px =>
          if index = s.transparentIndex then px else rgb332 (s.palette[index.toNat]'index.isLt))

/-- The colour of a palette byte by its three fields and the expansion tables, and its packing in the low 24 bits of a
pixel (42_video_ops.md section 1; the bit positions are decision D17, the packing decision D16, log entry 18; bits 31:24
are claimed nothing of, as D16 asks). -/
def Obligations.PaletteByteExpandsByItsFields : Prop :=
  ∀ c : Byte,
    some (rgb332 c).r = [(0 : Byte), 36, 73, 109, 146, 182, 219, 255][c.toNat / 32]? ∧
    some (rgb332 c).g = [(0 : Byte), 36, 73, 109, 146, 182, 219, 255][c.toNat / 4 % 8]? ∧
    some (rgb332 c).b = [(0 : Byte), 85, 170, 255][c.toNat % 4]? ∧
    (packPixel (rgb332 c)).toNat % 2 ^ 24 = (rgb332 c).r.toNat * 65536 + (rgb332 c).g.toNat * 256 + (rgb332 c).b.toNat

/-- COMPOSE is RENDERBASE, then RENDERLAYER2 if Layer2 is enabled; no flag is written (42_video_ops.md section 4; that
the request stays is decision D19, log entry 20). -/
def Obligations.ComposeIsBaseThenLayer2 : Prop :=
  ∀ s : State, ∃ t : State,
    exec .compose s = .next t ∧ t = { s with fb := t.fb, result := .none } ∧
    execAll (if s.enable then [.renderbase, .renderlayer2] else [.renderbase]) s = .next t

/-- Remapping a slot never changes what is displayed, and no element of the frame carries a value from an earlier
render: COMPOSE draws the same frame whatever the slot table, the paging latches, the redirect, `subBank`,
`regSelect`, the request, the counter, the checksums and the frame before it hold (20_memory.md section 6,
42_video_ops.md section 4). -/
def Obligations.ComposeIgnoresTranslationAndEarlierFrames : Prop :=
  ∀ (s t u v : State),
    t = { s with
      slot := t.slot, pagingLow := t.pagingLow, pagingHigh := t.pagingHigh, subBank := t.subBank
      write0Enable := t.write0Enable, regSelect := t.regSelect, redrawRequest := t.redrawRequest
      tickCounter := t.tickCounter, fb := t.fb, crc := t.crc, s1 := t.s1, s2 := t.s2
      pending := t.pending, result := t.result, draws := t.draws } →
    exec .compose s = .next u → exec .compose t = .next v → v.fb = u.fb

/-- TICK (42_video_ops.md section 5; that one operation is one tick is decision D20, log entry 20). -/
def Obligations.TickCountsAndInvertsEverySixteenth : Prop :=
  ∀ s : State,
    exec .tick s = .next
      (if s.tickCounter.toNat = 15 then
        { s with tickCounter := 0, flashToggle := !s.flashToggle, redrawRequest := true, result := .none }
       else { s with tickCounter := BitVec.ofNat 4 (s.tickCounter.toNat + 1), result := .none })

/-- Among any 16 consecutive TICKs exactly one inverts the flash toggle: after `k` of them it is inverted exactly when
the counter has passed 15, and after 16 the counter is where it was (95_test_vectors.md S9). -/
def Obligations.SixteenTicksInvertTheToggleOnce : Prop :=
  ∀ (s : State) (k : Nat), k ≤ 16 → ∃ t : State,
    execAll (List.replicate k .tick) s = .next t ∧
    t.flashToggle = (if s.tickCounter.toNat + k < 16 then s.flashToggle else !s.flashToggle) ∧
    t.tickCounter.toNat = (s.tickCounter.toNat + k) % 16 ∧
    t.redrawRequest = (s.redrawRequest || decide (16 ≤ s.tickCounter.toNat + k))

/-- ACKREDRAW clears the request and nothing else (42_video_ops.md section 6; decision D19, log entry 20). -/
def Obligations.AckredrawClearsTheRequest : Prop :=
  ∀ s : State, exec .ackredraw s = .next { s with redrawRequest := false, result := .none }

/-! ### Checksums -/

/-- CRC_INIT and CRC_FINAL (43_checksum_ops.md section 1; that CRC_FINAL leaves the register is derived there). -/
def Obligations.CrcInitAndFinal : Prop :=
  ∀ s : State,
    exec .crcInit s = .next { s with crc := 0xFFFFFFFF, result := .none } ∧
    exec .crcFinal s = .next { s with result := .sum (s.crc ^^^ 0xFFFFFFFF) } ∧
    ∃ t : State, execAll [.crcInit, .crcFinal] s = .next t ∧ t.result = .sum 0

/-- CRC_BYTE is the 8-step shift register on the byte, with its polynomial (43_checksum_ops.md, bit-serial form): the
table-driven step and the serial step are one function. The step itself is decision D28, log entry 19. -/
def Obligations.CrcByteIsTheSerialShiftRegister : Prop :=
  ∀ (b : Byte) (s : State),
    let shift := fun c : BitVec 32 => if c.getLsbD 0 = true then (c >>> 1) ^^^ 0xEDB88320 else c >>> 1
    exec (.crcByte b) s = .next { s with
      crc := shift (shift (shift (shift (shift (shift (shift (shift (s.crc ^^^ b.setWidth 32))))))))
      result := .none }

/-- CRC32 of a byte sequence is what CRC_INIT, a CRC_BYTE for each byte and CRC_FINAL deliver, and it leaves the
running register alone; and the source's two check values (43_checksum_ops.md section 1; S7; the step rests on
decision D28, log entry 19). -/
def Obligations.Crc32IsTheRunOfItsSteps : Prop :=
  ∀ (bs : List Byte) (s : State), ∃ (v : BitVec 32) (t : State),
    exec (.crc32 bs) s = .next { s with result := .sum v } ∧
    execAll (.crcInit :: (bs.map .crcByte ++ [.crcFinal])) s = .next t ∧ t.result = .sum v ∧
    (bs = [] → v = 0) ∧ (bs = [0x31, 0x32, 0x33, 0x34, 0x35, 0x36, 0x37, 0x38, 0x39] → v = 0xCBF43926)

/-- ADLER_INIT, ADLER_BYTE, ADLER_FINAL (43_checksum_ops.md section 2; the order of the updates is decision D27, log
entry 19). -/
def Obligations.AdlerSteps : Prop :=
  ∀ (b : Byte) (s : State),
    exec .adlerInit s = .next { s with s1 := 1, s2 := 0, result := .none } ∧
    exec (.adlerByte b) s = .next { s with
      s1 := BitVec.ofNat 16 ((s.s1.toNat + b.toNat) % 65521)
      s2 := BitVec.ofNat 16 ((s.s2.toNat + (s.s1.toNat + b.toNat) % 65521) % 65521)
      result := .none } ∧
    exec .adlerFinal s = .next { s with result := .sum (BitVec.ofNat 32 (s.s2.toNat * 65536 + s.s1.toNat)) }

/-- ADLER32 of a byte sequence is what its three operations deliver, it leaves the running sums alone, and its value
is the two sums in closed form: 1 plus the bytes, and the length plus each byte times the count of bytes from it on,
both modulo 65521 (43_checksum_ops.md section 2; decision D27, log entry 19). -/
def Obligations.Adler32IsTheTwoSums : Prop :=
  ∀ (bs : List Byte) (s : State), ∃ (v : BitVec 32) (t : State),
    exec (.adler32 bs) s = .next { s with result := .sum v } ∧
    execAll (.adlerInit :: (bs.map .adlerByte ++ [.adlerFinal])) s = .next t ∧ t.result = .sum v ∧
    v.toNat % 65536 = (1 + (bs.map BitVec.toNat).sum) % 65521 ∧
    v.toNat / 65536 =
      (bs.length + (bs.mapIdx fun i b => (bs.length - i) * b.toNat).sum) % 65521

/-! ### Stored blocks and containers -/

/-- STORED_BLOCK: flag byte, length and complement least significant byte first, data; longer data is refused
(44_deflate_zlib_ops.md section STORED_BLOCK; decisions D22, D24, log entries 16, 19). -/
def Obligations.StoredBlockLayout : Prop :=
  ∀ (f : Bool) (data : List Byte) (s : State),
    (data.length ≤ 65535 →
      exec (.storedBlock f data) s = .next { s with
        result := .bytes ((if f then (1 : Byte) else 0) ::
          BitVec.ofNat 8 (data.length % 256) :: BitVec.ofNat 8 (data.length / 256) ::
          BitVec.ofNat 8 ((65535 - data.length) % 256) :: BitVec.ofNat 8 ((65535 - data.length) / 256) :: data) }) ∧
    (65535 < data.length → exec (.storedBlock f data) s = .refused (.operandsOutOfRange "STORED_BLOCK"))

/-- STORED_STREAM and ZLIB_WRAP deliver a stream that a reader of stored blocks inflates to the input, of the length
the spec gives; or, where the parameter allows it, AllocationFailed and nothing else (44_deflate_zlib_ops.md sections
STORED_STREAM, ZLIB_WRAP, Validity; decisions D22 to D25, D30, log entries 7, 19). -/
def Obligations.StreamsInflateToTheirInput : Prop :=
  ∀ (raw : List Byte) (s : State), ∃ st z : List Byte,
    exec (.storedStream raw) s = .next { s with
      result := if s.allocationFails then .failed .allocationFailed else .bytes st
      draws := if s.cfg.allocCanFail then s.draws + 1 else s.draws } ∧
    exec (.zlibWrap raw) s = .next { s with
      result := if s.allocationFails then .failed .allocationFailed else .bytes z
      draws := if s.cfg.allocCanFail then s.draws + 1 else s.draws } ∧
    inflateStored st.length st = some (raw, []) ∧
    inflateZlib z = some raw ∧
    st.length = raw.length + 5 * max 1 ((raw.length + 65534) / 65535) ∧
    z = [0x78, 0x01] ++ st ++ z.drop (2 + st.length) ∧ z.length = st.length + 6

/-- The greedy split: where no allocation fails, STORED_STREAM delivers one final STORED_BLOCK for at most 65535 bytes;
for more, it delivers the STORED_BLOCK of the first 65535 bytes, not final, and after it what STORED_STREAM delivers
for the rest (44_deflate_zlib_ops.md section STORED_STREAM; decisions D22, D30, log entries 7, 19). -/
def Obligations.StoredStreamSplitsGreedily : Prop :=
  ∀ (raw : List Byte) (s : State), s.allocationFails = false →
    (raw.length ≤ 65535 → ∃ block : List Byte,
      exec (.storedBlock true raw) s = .next { s with result := .bytes block } ∧
      exec (.storedStream raw) s = .next { s with
        result := .bytes block
        draws := if s.cfg.allocCanFail then s.draws + 1 else s.draws }) ∧
    (65535 < raw.length → ∃ block rest : List Byte,
      exec (.storedBlock false (raw.take 65535)) s = .next { s with result := .bytes block } ∧
      exec (.storedStream (raw.drop 65535)) s = .next { s with
        result := .bytes rest
        draws := if s.cfg.allocCanFail then s.draws + 1 else s.draws } ∧
      exec (.storedStream raw) s = .next { s with
        result := .bytes (block ++ rest)
        draws := if s.cfg.allocCanFail then s.draws + 1 else s.draws })

/-- PNG_CHUNK: big-endian length, type, data, big-endian CRC-32 of type and data; longer data is refused
(45_png_nim_ops.md section PNG_CHUNK; decision D26, log entries 16, 19). -/
def Obligations.PngChunkLayout : Prop :=
  ∀ (ty : ChunkType) (data : List Byte) (s : State),
    (data.length < 2 ^ 31 → ∃ c : BitVec 32,
      exec (.crc32 (ty.toBytes ++ data)) s = .next { s with result := .sum c } ∧
      exec (.pngChunk ty data) s = .next { s with
        result := .bytes ([BitVec.ofNat 8 (data.length / 2 ^ 24), BitVec.ofNat 8 (data.length / 2 ^ 16),
          BitVec.ofNat 8 (data.length / 2 ^ 8), BitVec.ofNat 8 data.length] ++ ty.toBytes ++ data ++
          [BitVec.ofNat 8 (c.toNat / 2 ^ 24), BitVec.ofNat 8 (c.toNat / 2 ^ 16),
            BitVec.ofNat 8 (c.toNat / 2 ^ 8), BitVec.ofNat 8 c.toNat]) }) ∧
    (2 ^ 31 ≤ data.length → exec (.pngChunk ty data) s = .refused (.operandsOutOfRange "PNG_CHUNK"))

/-- For every operand in the range of 45_png_nim_ops.md section PNG_ENCODE and 93_implementation_defined.md U9,
PNG_ENCODE delivers the signature, IHDR with the width and the height, one IDAT whose data inflates to the raw
scanlines, and IEND, of the length the spec gives; or AllocationFailed (decisions D22 to D26, D30, D35, log entries 7,
16, 19). -/
def Obligations.PngEncodeIsAStructurallyValidPng : Prop :=
  ∀ (w h : Nat) (idx pal : List Byte) (tr : Byte) (s : State),
    1 ≤ w → w < 2 ^ 31 → 1 ≤ h → h < 2 ^ 31 → idx.length = w * h → pal.length = 256 →
    6 + h * (1 + 4 * w) + 5 * max 1 ((h * (1 + 4 * w) + 65534) / 65535) < 2 ^ 31 →
    ∃ (z : List Byte) (c1 c2 c3 : BitVec 32),
      exec (.pngEncode w h idx pal tr) s = .next { s with
        result := if s.allocationFails then .failed .allocationFailed else .bytes (
          [0x89, 0x50, 0x4E, 0x47, 0x0D, 0x0A, 0x1A, 0x0A] ++
            ([0, 0, 0, 13, 0x49, 0x48, 0x44, 0x52] ++ be32 (BitVec.ofNat 32 w) ++ be32 (BitVec.ofNat 32 h) ++
              [8, 6, 0, 0, 0] ++ be32 c1) ++
            (be32 (BitVec.ofNat 32 z.length) ++ [0x49, 0x44, 0x41, 0x54] ++ z ++ be32 c2) ++
            ([0, 0, 0, 0, 0x49, 0x45, 0x4E, 0x44] ++ be32 c3))
        draws := if s.cfg.allocCanFail then s.draws + 1 else s.draws } ∧
      c1 = crc32 ([0x49, 0x48, 0x44, 0x52] ++ be32 (BitVec.ofNat 32 w) ++ be32 (BitVec.ofNat 32 h) ++ [8, 6, 0, 0, 0]) ∧
      c2 = crc32 ([0x49, 0x44, 0x41, 0x54] ++ z) ∧ c3 = 0xAE426082 ∧
      inflateZlib z = some (pngRaw w h idx pal tr) ∧
      z.length = 6 + h * (1 + 4 * w) + 5 * max 1 ((h * (1 + 4 * w) + 65534) / 65535)

/-- The raw scanline stream: each row is a zero filter byte and four bytes R, G, B, A per pixel, alpha 0 exactly for
the transparent index, which keeps its colour (45_png_nim_ops.md sections Pixel conversion, Raw scanline stream;
decisions D17, D26, log entries 18, 19). -/
def Obligations.PngScanlinesHoldThePixels : Prop :=
  ∀ (w h : Nat) (idx pal : List Byte) (tr : Byte), idx.length = w * h → pal.length = 256 →
    (pngRaw w h idx pal tr).length = h * (1 + 4 * w) ∧
    ∀ y, y < h → (pngRaw w h idx pal tr)[y * (1 + 4 * w)]? = some 0 ∧
      ∀ x, x < w → ∃ i p : Byte, idx[y * w + x]? = some i ∧ pal[i.toNat]? = some p ∧
        ((pngRaw w h idx pal tr).drop (y * (1 + 4 * w) + 1 + 4 * x)).take 4 =
          [(rgb332 p).r, (rgb332 p).g, (rgb332 p).b, if i = tr then 0 else 255]

/-- Operands PNG_ENCODE and NIM_WRITE do not take are refused: a size of 0 or of 2^31 and more, another count of index
bytes, IDAT data of 2^31 bytes or more (93_implementation_defined.md U9, decision D35). That another palette length,
or another count of image bytes for NIM_WRITE, is refused is the model's choice (log entry 16). -/
def Obligations.ImagesOutOfRangeAreRefused : Prop :=
  (∀ (w h : Nat) (idx pal : List Byte) (tr : Byte) (s : State),
    w = 0 ∨ h = 0 ∨ 2 ^ 31 ≤ w ∨ 2 ^ 31 ≤ h ∨ idx.length ≠ w * h ∨ pal.length ≠ 256 ∨
      2 ^ 31 ≤ 6 + h * (1 + 4 * w) + 5 * max 1 ((h * (1 + 4 * w) + 65534) / 65535) →
      exec (.pngEncode w h idx pal tr) s = .refused (.operandsOutOfRange "PNG_ENCODE")) ∧
  (∀ (w h : BitVec 16) (img : List Byte) (s : State), img.length ≠ w.toNat * h.toNat →
    exec (.nimWrite w h img) s = .refused (.operandsOutOfRange "NIM_WRITE"))

/-- NIM_WRITE: version 0, width, height, least significant byte first, then the image bytes; or AllocationFailed, and
no state of the block changes (45_png_nim_ops.md section 2; the failure is the free outcome of decision D30, log entry
7). -/
def Obligations.NimWriteLayout : Prop :=
  ∀ (w h : BitVec 16) (img : List Byte) (s : State), img.length = w.toNat * h.toNat →
    exec (.nimWrite w h img) s = .next { s with
      result := if s.allocationFails then .failed .allocationFailed else .bytes (
        [0, 0, BitVec.ofNat 8 (w.toNat % 256), BitVec.ofNat 8 (w.toNat / 256),
          BitVec.ofNat 8 (h.toNat % 256), BitVec.ofNat 8 (h.toNat / 256)] ++ img)
      draws := if s.cfg.allocCanFail then s.draws + 1 else s.draws }

/-- NIM_READ: the image, or the empty result for fewer than 6 bytes, for a version other than 0, and for fewer image
bytes than announced; bytes after the image are ignored (45_png_nim_ops.md section NIM_READ; decision D41, log entry
19). -/
def Obligations.NimReadFailsClosed : Prop :=
  ∀ s : State,
    (∀ bs : List Byte, bs.length < 6 → exec (.nimRead bs) s = .next { s with result := .failed .malformedInput }) ∧
    (∀ (v0 v1 w0 w1 h0 h1 : Byte) (rest : List Byte),
      exec (.nimRead (v0 :: v1 :: w0 :: w1 :: h0 :: h1 :: rest)) s = .next { s with
        result := if v0 = 0 ∧ v1 = 0 ∧ (w0.toNat + 256 * w1.toNat) * (h0.toNat + 256 * h1.toNat) ≤ rest.length then
          .image (BitVec.ofNat 16 (w0.toNat + 256 * w1.toNat)) (BitVec.ofNat 16 (h0.toNat + 256 * h1.toNat))
            (rest.take ((w0.toNat + 256 * w1.toNat) * (h0.toNat + 256 * h1.toNat)))
        else .failed .malformedInput })

/-- What NIM_WRITE delivers, NIM_READ reads back exactly (45_png_nim_ops.md R248). -/
def Obligations.NimRoundTrip : Prop :=
  ∀ (w h : BitVec 16) (img out : List Byte) (s t u : State), img.length = w.toNat * h.toNat →
    exec (.nimWrite w h img) s = .next t → t.result = .bytes out →
      exec (.nimRead out) u = .next { u with result := .image w h img }

/-! ### The whole machine -/

/-- Reset establishes the invariants, for every configuration and every reset parameter whose RAM contents are in
canonical form inside the bank table (10_state.md section 10, section 12; the values of D10 and D12, log entry 15, are
the spec's choice, and the canonical form and those of log entries 10, 11 and 12 the model's). -/
def Obligations.ResetMeetsTheInvariants : Prop :=
  (∀ (c : Config) (p : ResetParams), Memory.wf p.ramInit → (∀ cell ∈ p.ramInit, cell.1 < c.nbanks * 16384) →
    (State.resetWith c p).Inv) ∧ State.reset.Inv

/-- Every step keeps the invariants, from every state that meets them: the bounds of 10_state.md section 10; the fixed
slots (20_memory.md section 4); the paging latches (41_port_ops.md OUT.PAGELO, OUT.PAGEHI); the frame's size and the
range of the Adler sums (10_state.md sections 5 and 6). The range of slot 3 and the idle paging of a 32-bank table rest
on decision D4 (log entry 14), the range of RAM on decision D6 (log entry 13), the identity palette on decision D12
(log entry 15), and the canonical form of RAM is the model's choice (log entry 10). -/
def Obligations.StepKeepsTheInvariants : Prop :=
  ∀ s t : State, s.Inv → step s = .next t → t.Inv

/-- What reset leaves (10_state.md section 12): by the values the source gives, the four slots, Layer2 disabled and the
identity palette; by decision D10 (log entry 15) 0 in `subBank`, `shadowEnable`, `write0Enable` and the paging latches;
by decision D21 (log entry 15) 0 in the flash items; every OPEN item from its parameter, the RAM included (decision
D11); and the parameters of the context are those given (log entry 8). -/
def Obligations.ResetLeavesTheSourcesValuesAndTheParameters : Prop :=
  ∀ (c : Config) (p : ResetParams),
    let s := State.resetWith c p
    s.slotBank 0 = 0 ∧ s.slotBank 1 = 5 ∧ s.slotBank 2 = 2 ∧ s.slotBank 3 = 0 ∧ s.enable = false ∧
    (∀ i : Byte, s.palette[i.toNat]'i.isLt = i) ∧
    s.subBank = 0 ∧ s.shadowEnable = false ∧ s.write0Enable = false ∧ s.pagingLow = 0 ∧ s.pagingHigh = 0 ∧
    s.flashToggle = false ∧ s.tickCounter = 0 ∧
    s.border = p.border ∧ s.regSelect = p.regSelect ∧ s.bankStart = p.bankStart ∧
    s.shadowBankStart = p.shadowBankStart ∧ s.transparentIndex = p.transparentIndex ∧
    s.redrawRequest = p.redrawRequest ∧ (∀ l : Loc, s.ramByte l = Memory.read p.ramInit l.key) ∧ s.cfg = c

/-- No operation is ever stuck: in every state every well-formed operation answers a next state, and the machine has
no fault (60_exceptions.md section 1). Well-formed means in the ranges of 93_implementation_defined.md U9 and U13 and
of PNG_CHUNK; the lengths of a palette and of a NIM image belong to it by the model's choice (log entry 16). -/
def Obligations.EveryOperationCompletesInEveryState : Prop :=
  ∀ (i : Instr) (s : State), i.wellFormed = true → ∃ t : State, exec i s = .next t

/-- An operation that ends in a failure leaves every item of the block's state as it was (60_exceptions.md section 2),
and fails only with a failure of its own kind (the table of 60_exceptions.md section 1; that AllocationFailed is an
outcome of these four encoders is decision D30, log entry 7). -/
def Obligations.FailedOperationChangesNothing : Prop :=
  ∀ (i : Instr) (s t : State) (f : Failure), exec i s = .next t → t.result = .failed f →
    s.sameBlock t ∧
    (match f with
      | .boundsExceeded _ _ => (∃ a bs, i = .bulkwr a bs) ∨ ∃ b o bs, i = .bulkwrbk b o bs
      | .allocationFailed => (∃ raw, i = .storedStream raw) ∨ (∃ raw, i = .zlibWrap raw) ∨
          (∃ w h idx pal tr, i = .pngEncode w h idx pal tr) ∨ ∃ w h img, i = .nimWrite w h img
      | .malformedInput => ∃ bs, i = .nimRead bs)

/-- The mutation paths: RAM changes only through the memory writes, the slot table and the PortDecoder registers only
through port writes, the flash items only through TICK, the frame only through the renders, the running checksums only
through their own operations, the redraw request only through BULKWR, port writes, TICK and ACKREDRAW, and the palette
and the parameters of the context through none (10_state.md section 11; the silence of the other operations is decision
D31, the clearing D19, the constant palette D12, log entries 15, 20). -/
def Obligations.StateChangesOnlyThroughItsPaths : Prop :=
  ∀ (i : Instr) (s t : State), exec i s = .next t →
    (i.writesRam = false → t.ram = s.ram) ∧
    (i.writesPorts = false →
      t.slot = s.slot ∧ t.border = s.border ∧ t.pagingLow = s.pagingLow ∧ t.pagingHigh = s.pagingHigh ∧
      t.subBank = s.subBank ∧ t.shadowEnable = s.shadowEnable ∧ t.enable = s.enable ∧
      t.write0Enable = s.write0Enable ∧ t.regSelect = s.regSelect ∧ t.bankStart = s.bankStart ∧
      t.shadowBankStart = s.shadowBankStart ∧ t.transparentIndex = s.transparentIndex) ∧
    (i ≠ .tick → t.flashToggle = s.flashToggle ∧ t.tickCounter = s.tickCounter) ∧
    (i.writesFrame = false → t.fb = s.fb) ∧
    (i.writesSums = false → t.crc = s.crc ∧ t.s1 = s.s1 ∧ t.s2 = s.s2) ∧
    (i.writesPorts = false → i ≠ .tick → i ≠ .ackredraw → (∀ a bs, i ≠ .bulkwr a bs) →
      t.redrawRequest = s.redrawRequest) ∧
    t.palette = s.palette ∧ t.cfg = s.cfg

/-- The redraw request rises only by its five sources, and falls only by ACKREDRAW (10_state.md section 5; the
clearing is decision D19 and the silence of the other operations decision D31, log entry 20). A port write that raises
it does so by the port number of its own record, the border's, the Layer2 control port, or the data port with index
0x12 or 0x13 latched; WRITEREG is the data port write it ends with. -/
def Obligations.RedrawRequestHasFiveSources : Prop :=
  ∀ (i : Instr) (s t : State), exec i s = .next t →
    (s.redrawRequest = false → t.redrawRequest = true →
      (∃ a bs, i = .bulkwr a bs ∧ a.toNat + bs.length ≤ 65536) ∨
      (i = .tick ∧ s.tickCounter = 15) ∨
      (∃ r v, i = .writereg r v ∧ (r = 0x12 ∨ r = 0x13)) ∨
      ∃ p v, encode i = encode (.out p v) ∧ exec i s = exec (.out p v) s ∧
        (p.toNat % 256 = 0xFE ∨ p = 0x123B ∨ p = 0x253B ∧ (s.regSelect = 0x12 ∨ s.regSelect = 0x13))) ∧
    (s.redrawRequest = true → t.redrawRequest = false → i = .ackredraw)

/-- What no step changes: the parameters of the context, the palette, the banks of slots 0, 1 and 2; with 32 banks the
whole slot table; without register 0x14 the transparent index (10_state.md sections 3 and 4, 20_memory.md section 4;
the constant palette is decision D12, log entry 15; that a 32-bank table has no paging ports is decision D4, log entry
14; that register 0x14 may be absent by itself is decision D5, log entry 14). -/
def Obligations.WhatNoStepChanges : Prop :=
  ∀ s t : State, step s = .next t →
    t.cfg = s.cfg ∧ t.palette = s.palette ∧ (∀ i : BitVec 2, i ≠ 3 → t.slotBank i = s.slotBank i) ∧
    (s.cfg.banks = .banks32 → t.slot = s.slot) ∧
    (s.cfg.hasL2Transp = false → t.transparentIndex = s.transparentIndex)
end

