-- ==== Sys2Proof/Laws/State.lean ====
section
/-! SUPPORT. One lemma per field per named update of the state, each true by rfl, so that no proof unfolds a record
update. -/

namespace Sys2Proof.Machine

section deliver
variable (s : State) (r : Result)

@[simp] theorem State.deliver_cfg : (s.deliver r).cfg = s.cfg := rfl
@[simp] theorem State.deliver_ram : (s.deliver r).ram = s.ram := rfl
@[simp] theorem State.deliver_slot : (s.deliver r).slot = s.slot := rfl
@[simp] theorem State.deliver_border : (s.deliver r).border = s.border := rfl
@[simp] theorem State.deliver_pagingLow : (s.deliver r).pagingLow = s.pagingLow := rfl
@[simp] theorem State.deliver_pagingHigh : (s.deliver r).pagingHigh = s.pagingHigh := rfl
@[simp] theorem State.deliver_subBank : (s.deliver r).subBank = s.subBank := rfl
@[simp] theorem State.deliver_shadowEnable : (s.deliver r).shadowEnable = s.shadowEnable := rfl
@[simp] theorem State.deliver_enable : (s.deliver r).enable = s.enable := rfl
@[simp] theorem State.deliver_write0Enable : (s.deliver r).write0Enable = s.write0Enable := rfl
@[simp] theorem State.deliver_regSelect : (s.deliver r).regSelect = s.regSelect := rfl
@[simp] theorem State.deliver_bankStart : (s.deliver r).bankStart = s.bankStart := rfl
@[simp] theorem State.deliver_shadowBankStart : (s.deliver r).shadowBankStart = s.shadowBankStart := rfl
@[simp] theorem State.deliver_transparentIndex : (s.deliver r).transparentIndex = s.transparentIndex := rfl
@[simp] theorem State.deliver_redrawRequest : (s.deliver r).redrawRequest = s.redrawRequest := rfl
@[simp] theorem State.deliver_palette : (s.deliver r).palette = s.palette := rfl
@[simp] theorem State.deliver_flashToggle : (s.deliver r).flashToggle = s.flashToggle := rfl
@[simp] theorem State.deliver_tickCounter : (s.deliver r).tickCounter = s.tickCounter := rfl
@[simp] theorem State.deliver_fb : (s.deliver r).fb = s.fb := rfl
@[simp] theorem State.deliver_crc : (s.deliver r).crc = s.crc := rfl
@[simp] theorem State.deliver_s1 : (s.deliver r).s1 = s.s1 := rfl
@[simp] theorem State.deliver_s2 : (s.deliver r).s2 = s.s2 := rfl
@[simp] theorem State.deliver_pending : (s.deliver r).pending = s.pending := rfl
@[simp] theorem State.deliver_result : (s.deliver r).result = r := rfl
@[simp] theorem State.deliver_draws : (s.deliver r).draws = s.draws := rfl

end deliver

section fail
variable (s : State) (f : Failure)

@[simp] theorem State.fail_cfg : (s.fail f).cfg = s.cfg := rfl
@[simp] theorem State.fail_ram : (s.fail f).ram = s.ram := rfl
@[simp] theorem State.fail_slot : (s.fail f).slot = s.slot := rfl
@[simp] theorem State.fail_border : (s.fail f).border = s.border := rfl
@[simp] theorem State.fail_pagingLow : (s.fail f).pagingLow = s.pagingLow := rfl
@[simp] theorem State.fail_pagingHigh : (s.fail f).pagingHigh = s.pagingHigh := rfl
@[simp] theorem State.fail_subBank : (s.fail f).subBank = s.subBank := rfl
@[simp] theorem State.fail_shadowEnable : (s.fail f).shadowEnable = s.shadowEnable := rfl
@[simp] theorem State.fail_enable : (s.fail f).enable = s.enable := rfl
@[simp] theorem State.fail_write0Enable : (s.fail f).write0Enable = s.write0Enable := rfl
@[simp] theorem State.fail_regSelect : (s.fail f).regSelect = s.regSelect := rfl
@[simp] theorem State.fail_bankStart : (s.fail f).bankStart = s.bankStart := rfl
@[simp] theorem State.fail_shadowBankStart : (s.fail f).shadowBankStart = s.shadowBankStart := rfl
@[simp] theorem State.fail_transparentIndex : (s.fail f).transparentIndex = s.transparentIndex := rfl
@[simp] theorem State.fail_redrawRequest : (s.fail f).redrawRequest = s.redrawRequest := rfl
@[simp] theorem State.fail_palette : (s.fail f).palette = s.palette := rfl
@[simp] theorem State.fail_flashToggle : (s.fail f).flashToggle = s.flashToggle := rfl
@[simp] theorem State.fail_tickCounter : (s.fail f).tickCounter = s.tickCounter := rfl
@[simp] theorem State.fail_fb : (s.fail f).fb = s.fb := rfl
@[simp] theorem State.fail_crc : (s.fail f).crc = s.crc := rfl
@[simp] theorem State.fail_s1 : (s.fail f).s1 = s.s1 := rfl
@[simp] theorem State.fail_s2 : (s.fail f).s2 = s.s2 := rfl
@[simp] theorem State.fail_pending : (s.fail f).pending = s.pending := rfl
@[simp] theorem State.fail_result : (s.fail f).result = .failed f := rfl
@[simp] theorem State.fail_draws : (s.fail f).draws = s.draws := rfl

end fail

section requestRedraw
variable (s : State)

@[simp] theorem State.requestRedraw_cfg : (s.requestRedraw).cfg = s.cfg := rfl
@[simp] theorem State.requestRedraw_ram : (s.requestRedraw).ram = s.ram := rfl
@[simp] theorem State.requestRedraw_slot : (s.requestRedraw).slot = s.slot := rfl
@[simp] theorem State.requestRedraw_border : (s.requestRedraw).border = s.border := rfl
@[simp] theorem State.requestRedraw_pagingLow : (s.requestRedraw).pagingLow = s.pagingLow := rfl
@[simp] theorem State.requestRedraw_pagingHigh : (s.requestRedraw).pagingHigh = s.pagingHigh := rfl
@[simp] theorem State.requestRedraw_subBank : (s.requestRedraw).subBank = s.subBank := rfl
@[simp] theorem State.requestRedraw_shadowEnable : (s.requestRedraw).shadowEnable = s.shadowEnable := rfl
@[simp] theorem State.requestRedraw_enable : (s.requestRedraw).enable = s.enable := rfl
@[simp] theorem State.requestRedraw_write0Enable : (s.requestRedraw).write0Enable = s.write0Enable := rfl
@[simp] theorem State.requestRedraw_regSelect : (s.requestRedraw).regSelect = s.regSelect := rfl
@[simp] theorem State.requestRedraw_bankStart : (s.requestRedraw).bankStart = s.bankStart := rfl
@[simp] theorem State.requestRedraw_shadowBankStart : (s.requestRedraw).shadowBankStart = s.shadowBankStart := rfl
@[simp] theorem State.requestRedraw_transparentIndex : (s.requestRedraw).transparentIndex = s.transparentIndex := rfl
@[simp] theorem State.requestRedraw_redrawRequest : (s.requestRedraw).redrawRequest = true := rfl
@[simp] theorem State.requestRedraw_palette : (s.requestRedraw).palette = s.palette := rfl
@[simp] theorem State.requestRedraw_flashToggle : (s.requestRedraw).flashToggle = s.flashToggle := rfl
@[simp] theorem State.requestRedraw_tickCounter : (s.requestRedraw).tickCounter = s.tickCounter := rfl
@[simp] theorem State.requestRedraw_fb : (s.requestRedraw).fb = s.fb := rfl
@[simp] theorem State.requestRedraw_crc : (s.requestRedraw).crc = s.crc := rfl
@[simp] theorem State.requestRedraw_s1 : (s.requestRedraw).s1 = s.s1 := rfl
@[simp] theorem State.requestRedraw_s2 : (s.requestRedraw).s2 = s.s2 := rfl
@[simp] theorem State.requestRedraw_pending : (s.requestRedraw).pending = s.pending := rfl
@[simp] theorem State.requestRedraw_result : (s.requestRedraw).result = s.result := rfl
@[simp] theorem State.requestRedraw_draws : (s.requestRedraw).draws = s.draws := rfl

end requestRedraw

section clearRedraw
variable (s : State)

@[simp] theorem State.clearRedraw_cfg : (s.clearRedraw).cfg = s.cfg := rfl
@[simp] theorem State.clearRedraw_ram : (s.clearRedraw).ram = s.ram := rfl
@[simp] theorem State.clearRedraw_slot : (s.clearRedraw).slot = s.slot := rfl
@[simp] theorem State.clearRedraw_border : (s.clearRedraw).border = s.border := rfl
@[simp] theorem State.clearRedraw_pagingLow : (s.clearRedraw).pagingLow = s.pagingLow := rfl
@[simp] theorem State.clearRedraw_pagingHigh : (s.clearRedraw).pagingHigh = s.pagingHigh := rfl
@[simp] theorem State.clearRedraw_subBank : (s.clearRedraw).subBank = s.subBank := rfl
@[simp] theorem State.clearRedraw_shadowEnable : (s.clearRedraw).shadowEnable = s.shadowEnable := rfl
@[simp] theorem State.clearRedraw_enable : (s.clearRedraw).enable = s.enable := rfl
@[simp] theorem State.clearRedraw_write0Enable : (s.clearRedraw).write0Enable = s.write0Enable := rfl
@[simp] theorem State.clearRedraw_regSelect : (s.clearRedraw).regSelect = s.regSelect := rfl
@[simp] theorem State.clearRedraw_bankStart : (s.clearRedraw).bankStart = s.bankStart := rfl
@[simp] theorem State.clearRedraw_shadowBankStart : (s.clearRedraw).shadowBankStart = s.shadowBankStart := rfl
@[simp] theorem State.clearRedraw_transparentIndex : (s.clearRedraw).transparentIndex = s.transparentIndex := rfl
@[simp] theorem State.clearRedraw_redrawRequest : (s.clearRedraw).redrawRequest = false := rfl
@[simp] theorem State.clearRedraw_palette : (s.clearRedraw).palette = s.palette := rfl
@[simp] theorem State.clearRedraw_flashToggle : (s.clearRedraw).flashToggle = s.flashToggle := rfl
@[simp] theorem State.clearRedraw_tickCounter : (s.clearRedraw).tickCounter = s.tickCounter := rfl
@[simp] theorem State.clearRedraw_fb : (s.clearRedraw).fb = s.fb := rfl
@[simp] theorem State.clearRedraw_crc : (s.clearRedraw).crc = s.crc := rfl
@[simp] theorem State.clearRedraw_s1 : (s.clearRedraw).s1 = s.s1 := rfl
@[simp] theorem State.clearRedraw_s2 : (s.clearRedraw).s2 = s.s2 := rfl
@[simp] theorem State.clearRedraw_pending : (s.clearRedraw).pending = s.pending := rfl
@[simp] theorem State.clearRedraw_result : (s.clearRedraw).result = s.result := rfl
@[simp] theorem State.clearRedraw_draws : (s.clearRedraw).draws = s.draws := rfl

end clearRedraw

section setRamByte
variable (s : State) (l : Loc) (v : Byte)

@[simp] theorem State.setRamByte_cfg : (s.setRamByte l v).cfg = s.cfg := rfl
@[simp] theorem State.setRamByte_ram : (s.setRamByte l v).ram = Memory.write s.ram l.key v := rfl
@[simp] theorem State.setRamByte_slot : (s.setRamByte l v).slot = s.slot := rfl
@[simp] theorem State.setRamByte_border : (s.setRamByte l v).border = s.border := rfl
@[simp] theorem State.setRamByte_pagingLow : (s.setRamByte l v).pagingLow = s.pagingLow := rfl
@[simp] theorem State.setRamByte_pagingHigh : (s.setRamByte l v).pagingHigh = s.pagingHigh := rfl
@[simp] theorem State.setRamByte_subBank : (s.setRamByte l v).subBank = s.subBank := rfl
@[simp] theorem State.setRamByte_shadowEnable : (s.setRamByte l v).shadowEnable = s.shadowEnable := rfl
@[simp] theorem State.setRamByte_enable : (s.setRamByte l v).enable = s.enable := rfl
@[simp] theorem State.setRamByte_write0Enable : (s.setRamByte l v).write0Enable = s.write0Enable := rfl
@[simp] theorem State.setRamByte_regSelect : (s.setRamByte l v).regSelect = s.regSelect := rfl
@[simp] theorem State.setRamByte_bankStart : (s.setRamByte l v).bankStart = s.bankStart := rfl
@[simp] theorem State.setRamByte_shadowBankStart : (s.setRamByte l v).shadowBankStart = s.shadowBankStart := rfl
@[simp] theorem State.setRamByte_transparentIndex : (s.setRamByte l v).transparentIndex = s.transparentIndex := rfl
@[simp] theorem State.setRamByte_redrawRequest : (s.setRamByte l v).redrawRequest = s.redrawRequest := rfl
@[simp] theorem State.setRamByte_palette : (s.setRamByte l v).palette = s.palette := rfl
@[simp] theorem State.setRamByte_flashToggle : (s.setRamByte l v).flashToggle = s.flashToggle := rfl
@[simp] theorem State.setRamByte_tickCounter : (s.setRamByte l v).tickCounter = s.tickCounter := rfl
@[simp] theorem State.setRamByte_fb : (s.setRamByte l v).fb = s.fb := rfl
@[simp] theorem State.setRamByte_crc : (s.setRamByte l v).crc = s.crc := rfl
@[simp] theorem State.setRamByte_s1 : (s.setRamByte l v).s1 = s.s1 := rfl
@[simp] theorem State.setRamByte_s2 : (s.setRamByte l v).s2 = s.s2 := rfl
@[simp] theorem State.setRamByte_pending : (s.setRamByte l v).pending = s.pending := rfl
@[simp] theorem State.setRamByte_result : (s.setRamByte l v).result = s.result := rfl
@[simp] theorem State.setRamByte_draws : (s.setRamByte l v).draws = s.draws := rfl

end setRamByte

section writeByte
variable (s : State) (a : Addr) (v : Byte)

@[simp] theorem State.writeByte_cfg : (s.writeByte a v).cfg = s.cfg := rfl
@[simp] theorem State.writeByte_ram : (s.writeByte a v).ram = Memory.write s.ram (s.translate a true).key v := rfl
@[simp] theorem State.writeByte_slot : (s.writeByte a v).slot = s.slot := rfl
@[simp] theorem State.writeByte_border : (s.writeByte a v).border = s.border := rfl
@[simp] theorem State.writeByte_pagingLow : (s.writeByte a v).pagingLow = s.pagingLow := rfl
@[simp] theorem State.writeByte_pagingHigh : (s.writeByte a v).pagingHigh = s.pagingHigh := rfl
@[simp] theorem State.writeByte_subBank : (s.writeByte a v).subBank = s.subBank := rfl
@[simp] theorem State.writeByte_shadowEnable : (s.writeByte a v).shadowEnable = s.shadowEnable := rfl
@[simp] theorem State.writeByte_enable : (s.writeByte a v).enable = s.enable := rfl
@[simp] theorem State.writeByte_write0Enable : (s.writeByte a v).write0Enable = s.write0Enable := rfl
@[simp] theorem State.writeByte_regSelect : (s.writeByte a v).regSelect = s.regSelect := rfl
@[simp] theorem State.writeByte_bankStart : (s.writeByte a v).bankStart = s.bankStart := rfl
@[simp] theorem State.writeByte_shadowBankStart : (s.writeByte a v).shadowBankStart = s.shadowBankStart := rfl
@[simp] theorem State.writeByte_transparentIndex : (s.writeByte a v).transparentIndex = s.transparentIndex := rfl
@[simp] theorem State.writeByte_redrawRequest : (s.writeByte a v).redrawRequest = s.redrawRequest := rfl
@[simp] theorem State.writeByte_palette : (s.writeByte a v).palette = s.palette := rfl
@[simp] theorem State.writeByte_flashToggle : (s.writeByte a v).flashToggle = s.flashToggle := rfl
@[simp] theorem State.writeByte_tickCounter : (s.writeByte a v).tickCounter = s.tickCounter := rfl
@[simp] theorem State.writeByte_fb : (s.writeByte a v).fb = s.fb := rfl
@[simp] theorem State.writeByte_crc : (s.writeByte a v).crc = s.crc := rfl
@[simp] theorem State.writeByte_s1 : (s.writeByte a v).s1 = s.s1 := rfl
@[simp] theorem State.writeByte_s2 : (s.writeByte a v).s2 = s.s2 := rfl
@[simp] theorem State.writeByte_pending : (s.writeByte a v).pending = s.pending := rfl
@[simp] theorem State.writeByte_result : (s.writeByte a v).result = s.result := rfl
@[simp] theorem State.writeByte_draws : (s.writeByte a v).draws = s.draws := rfl

end writeByte

section setAdler
variable (s : State) (a : AdlerSums)

@[simp] theorem State.setAdler_cfg : (s.setAdler a).cfg = s.cfg := rfl
@[simp] theorem State.setAdler_ram : (s.setAdler a).ram = s.ram := rfl
@[simp] theorem State.setAdler_slot : (s.setAdler a).slot = s.slot := rfl
@[simp] theorem State.setAdler_border : (s.setAdler a).border = s.border := rfl
@[simp] theorem State.setAdler_pagingLow : (s.setAdler a).pagingLow = s.pagingLow := rfl
@[simp] theorem State.setAdler_pagingHigh : (s.setAdler a).pagingHigh = s.pagingHigh := rfl
@[simp] theorem State.setAdler_subBank : (s.setAdler a).subBank = s.subBank := rfl
@[simp] theorem State.setAdler_shadowEnable : (s.setAdler a).shadowEnable = s.shadowEnable := rfl
@[simp] theorem State.setAdler_enable : (s.setAdler a).enable = s.enable := rfl
@[simp] theorem State.setAdler_write0Enable : (s.setAdler a).write0Enable = s.write0Enable := rfl
@[simp] theorem State.setAdler_regSelect : (s.setAdler a).regSelect = s.regSelect := rfl
@[simp] theorem State.setAdler_bankStart : (s.setAdler a).bankStart = s.bankStart := rfl
@[simp] theorem State.setAdler_shadowBankStart : (s.setAdler a).shadowBankStart = s.shadowBankStart := rfl
@[simp] theorem State.setAdler_transparentIndex : (s.setAdler a).transparentIndex = s.transparentIndex := rfl
@[simp] theorem State.setAdler_redrawRequest : (s.setAdler a).redrawRequest = s.redrawRequest := rfl
@[simp] theorem State.setAdler_palette : (s.setAdler a).palette = s.palette := rfl
@[simp] theorem State.setAdler_flashToggle : (s.setAdler a).flashToggle = s.flashToggle := rfl
@[simp] theorem State.setAdler_tickCounter : (s.setAdler a).tickCounter = s.tickCounter := rfl
@[simp] theorem State.setAdler_fb : (s.setAdler a).fb = s.fb := rfl
@[simp] theorem State.setAdler_crc : (s.setAdler a).crc = s.crc := rfl
@[simp] theorem State.setAdler_s1 : (s.setAdler a).s1 = a.s1 := rfl
@[simp] theorem State.setAdler_s2 : (s.setAdler a).s2 = a.s2 := rfl
@[simp] theorem State.setAdler_pending : (s.setAdler a).pending = s.pending := rfl
@[simp] theorem State.setAdler_result : (s.setAdler a).result = s.result := rfl
@[simp] theorem State.setAdler_draws : (s.setAdler a).draws = s.draws := rfl

end setAdler

section rowBorder
variable (s : State) (v : Byte)

@[simp] theorem State.rowBorder_cfg : (s.rowBorder v).cfg = s.cfg := rfl
@[simp] theorem State.rowBorder_ram : (s.rowBorder v).ram = s.ram := rfl
@[simp] theorem State.rowBorder_slot : (s.rowBorder v).slot = s.slot := rfl
@[simp] theorem State.rowBorder_border : (s.rowBorder v).border = low3 v := rfl
@[simp] theorem State.rowBorder_pagingLow : (s.rowBorder v).pagingLow = s.pagingLow := rfl
@[simp] theorem State.rowBorder_pagingHigh : (s.rowBorder v).pagingHigh = s.pagingHigh := rfl
@[simp] theorem State.rowBorder_subBank : (s.rowBorder v).subBank = s.subBank := rfl
@[simp] theorem State.rowBorder_shadowEnable : (s.rowBorder v).shadowEnable = s.shadowEnable := rfl
@[simp] theorem State.rowBorder_enable : (s.rowBorder v).enable = s.enable := rfl
@[simp] theorem State.rowBorder_write0Enable : (s.rowBorder v).write0Enable = s.write0Enable := rfl
@[simp] theorem State.rowBorder_regSelect : (s.rowBorder v).regSelect = s.regSelect := rfl
@[simp] theorem State.rowBorder_bankStart : (s.rowBorder v).bankStart = s.bankStart := rfl
@[simp] theorem State.rowBorder_shadowBankStart : (s.rowBorder v).shadowBankStart = s.shadowBankStart := rfl
@[simp] theorem State.rowBorder_transparentIndex : (s.rowBorder v).transparentIndex = s.transparentIndex := rfl
@[simp] theorem State.rowBorder_redrawRequest : (s.rowBorder v).redrawRequest = true := rfl
@[simp] theorem State.rowBorder_palette : (s.rowBorder v).palette = s.palette := rfl
@[simp] theorem State.rowBorder_flashToggle : (s.rowBorder v).flashToggle = s.flashToggle := rfl
@[simp] theorem State.rowBorder_tickCounter : (s.rowBorder v).tickCounter = s.tickCounter := rfl
@[simp] theorem State.rowBorder_fb : (s.rowBorder v).fb = s.fb := rfl
@[simp] theorem State.rowBorder_crc : (s.rowBorder v).crc = s.crc := rfl
@[simp] theorem State.rowBorder_s1 : (s.rowBorder v).s1 = s.s1 := rfl
@[simp] theorem State.rowBorder_s2 : (s.rowBorder v).s2 = s.s2 := rfl
@[simp] theorem State.rowBorder_pending : (s.rowBorder v).pending = s.pending := rfl
@[simp] theorem State.rowBorder_result : (s.rowBorder v).result = s.result := rfl
@[simp] theorem State.rowBorder_draws : (s.rowBorder v).draws = s.draws := rfl

end rowBorder

section rowPagelo
variable (s : State) (v : Byte)

@[simp] theorem State.rowPagelo_cfg : (s.rowPagelo v).cfg = s.cfg := rfl
@[simp] theorem State.rowPagelo_ram : (s.rowPagelo v).ram = s.ram := rfl
@[simp] theorem State.rowPagelo_slot : (s.rowPagelo v).slot = s.slot := rfl
@[simp] theorem State.rowPagelo_border : (s.rowPagelo v).border = s.border := rfl
@[simp] theorem State.rowPagelo_pagingLow : (s.rowPagelo v).pagingLow = low3 v := rfl
@[simp] theorem State.rowPagelo_pagingHigh : (s.rowPagelo v).pagingHigh = s.pagingHigh := rfl
@[simp] theorem State.rowPagelo_subBank : (s.rowPagelo v).subBank = s.subBank := rfl
@[simp] theorem State.rowPagelo_shadowEnable : (s.rowPagelo v).shadowEnable = s.shadowEnable := rfl
@[simp] theorem State.rowPagelo_enable : (s.rowPagelo v).enable = s.enable := rfl
@[simp] theorem State.rowPagelo_write0Enable : (s.rowPagelo v).write0Enable = s.write0Enable := rfl
@[simp] theorem State.rowPagelo_regSelect : (s.rowPagelo v).regSelect = s.regSelect := rfl
@[simp] theorem State.rowPagelo_bankStart : (s.rowPagelo v).bankStart = s.bankStart := rfl
@[simp] theorem State.rowPagelo_shadowBankStart : (s.rowPagelo v).shadowBankStart = s.shadowBankStart := rfl
@[simp] theorem State.rowPagelo_transparentIndex : (s.rowPagelo v).transparentIndex = s.transparentIndex := rfl
@[simp] theorem State.rowPagelo_redrawRequest : (s.rowPagelo v).redrawRequest = s.redrawRequest := rfl
@[simp] theorem State.rowPagelo_palette : (s.rowPagelo v).palette = s.palette := rfl
@[simp] theorem State.rowPagelo_flashToggle : (s.rowPagelo v).flashToggle = s.flashToggle := rfl
@[simp] theorem State.rowPagelo_tickCounter : (s.rowPagelo v).tickCounter = s.tickCounter := rfl
@[simp] theorem State.rowPagelo_fb : (s.rowPagelo v).fb = s.fb := rfl
@[simp] theorem State.rowPagelo_crc : (s.rowPagelo v).crc = s.crc := rfl
@[simp] theorem State.rowPagelo_s1 : (s.rowPagelo v).s1 = s.s1 := rfl
@[simp] theorem State.rowPagelo_s2 : (s.rowPagelo v).s2 = s.s2 := rfl
@[simp] theorem State.rowPagelo_pending : (s.rowPagelo v).pending = s.pending := rfl
@[simp] theorem State.rowPagelo_result : (s.rowPagelo v).result = s.result := rfl
@[simp] theorem State.rowPagelo_draws : (s.rowPagelo v).draws = s.draws := rfl

end rowPagelo

section rowPagehi
variable (s : State) (v : Byte)

@[simp] theorem State.rowPagehi_cfg : (s.rowPagehi v).cfg = s.cfg := rfl
@[simp] theorem State.rowPagehi_ram : (s.rowPagehi v).ram = s.ram := rfl
@[simp] theorem State.rowPagehi_slot : (s.rowPagehi v).slot = s.slot.set 3 (pagedBank s.pagingLow (low3 v)) := rfl
@[simp] theorem State.rowPagehi_border : (s.rowPagehi v).border = s.border := rfl
@[simp] theorem State.rowPagehi_pagingLow : (s.rowPagehi v).pagingLow = s.pagingLow := rfl
@[simp] theorem State.rowPagehi_pagingHigh : (s.rowPagehi v).pagingHigh = low3 v := rfl
@[simp] theorem State.rowPagehi_subBank : (s.rowPagehi v).subBank = s.subBank := rfl
@[simp] theorem State.rowPagehi_shadowEnable : (s.rowPagehi v).shadowEnable = s.shadowEnable := rfl
@[simp] theorem State.rowPagehi_enable : (s.rowPagehi v).enable = s.enable := rfl
@[simp] theorem State.rowPagehi_write0Enable : (s.rowPagehi v).write0Enable = s.write0Enable := rfl
@[simp] theorem State.rowPagehi_regSelect : (s.rowPagehi v).regSelect = s.regSelect := rfl
@[simp] theorem State.rowPagehi_bankStart : (s.rowPagehi v).bankStart = s.bankStart := rfl
@[simp] theorem State.rowPagehi_shadowBankStart : (s.rowPagehi v).shadowBankStart = s.shadowBankStart := rfl
@[simp] theorem State.rowPagehi_transparentIndex : (s.rowPagehi v).transparentIndex = s.transparentIndex := rfl
@[simp] theorem State.rowPagehi_redrawRequest : (s.rowPagehi v).redrawRequest = s.redrawRequest := rfl
@[simp] theorem State.rowPagehi_palette : (s.rowPagehi v).palette = s.palette := rfl
@[simp] theorem State.rowPagehi_flashToggle : (s.rowPagehi v).flashToggle = s.flashToggle := rfl
@[simp] theorem State.rowPagehi_tickCounter : (s.rowPagehi v).tickCounter = s.tickCounter := rfl
@[simp] theorem State.rowPagehi_fb : (s.rowPagehi v).fb = s.fb := rfl
@[simp] theorem State.rowPagehi_crc : (s.rowPagehi v).crc = s.crc := rfl
@[simp] theorem State.rowPagehi_s1 : (s.rowPagehi v).s1 = s.s1 := rfl
@[simp] theorem State.rowPagehi_s2 : (s.rowPagehi v).s2 = s.s2 := rfl
@[simp] theorem State.rowPagehi_pending : (s.rowPagehi v).pending = s.pending := rfl
@[simp] theorem State.rowPagehi_result : (s.rowPagehi v).result = s.result := rfl
@[simp] theorem State.rowPagehi_draws : (s.rowPagehi v).draws = s.draws := rfl

end rowPagehi

section rowL2ctrl
variable (s : State) (v : Byte)

@[simp] theorem State.rowL2ctrl_cfg : (s.rowL2ctrl v).cfg = s.cfg := rfl
@[simp] theorem State.rowL2ctrl_ram : (s.rowL2ctrl v).ram = s.ram := rfl
@[simp] theorem State.rowL2ctrl_slot : (s.rowL2ctrl v).slot = s.slot := rfl
@[simp] theorem State.rowL2ctrl_border : (s.rowL2ctrl v).border = s.border := rfl
@[simp] theorem State.rowL2ctrl_pagingLow : (s.rowL2ctrl v).pagingLow = s.pagingLow := rfl
@[simp] theorem State.rowL2ctrl_pagingHigh : (s.rowL2ctrl v).pagingHigh = s.pagingHigh := rfl
@[simp] theorem State.rowL2ctrl_subBank : (s.rowL2ctrl v).subBank = ctrlSubBank v := rfl
@[simp] theorem State.rowL2ctrl_shadowEnable : (s.rowL2ctrl v).shadowEnable = ctrlShadowEnable v := rfl
@[simp] theorem State.rowL2ctrl_enable : (s.rowL2ctrl v).enable = ctrlEnable v := rfl
@[simp] theorem State.rowL2ctrl_write0Enable : (s.rowL2ctrl v).write0Enable = ctrlWrite0Enable v := rfl
@[simp] theorem State.rowL2ctrl_regSelect : (s.rowL2ctrl v).regSelect = s.regSelect := rfl
@[simp] theorem State.rowL2ctrl_bankStart : (s.rowL2ctrl v).bankStart = s.bankStart := rfl
@[simp] theorem State.rowL2ctrl_shadowBankStart : (s.rowL2ctrl v).shadowBankStart = s.shadowBankStart := rfl
@[simp] theorem State.rowL2ctrl_transparentIndex : (s.rowL2ctrl v).transparentIndex = s.transparentIndex := rfl
@[simp] theorem State.rowL2ctrl_redrawRequest : (s.rowL2ctrl v).redrawRequest = true := rfl
@[simp] theorem State.rowL2ctrl_palette : (s.rowL2ctrl v).palette = s.palette := rfl
@[simp] theorem State.rowL2ctrl_flashToggle : (s.rowL2ctrl v).flashToggle = s.flashToggle := rfl
@[simp] theorem State.rowL2ctrl_tickCounter : (s.rowL2ctrl v).tickCounter = s.tickCounter := rfl
@[simp] theorem State.rowL2ctrl_fb : (s.rowL2ctrl v).fb = s.fb := rfl
@[simp] theorem State.rowL2ctrl_crc : (s.rowL2ctrl v).crc = s.crc := rfl
@[simp] theorem State.rowL2ctrl_s1 : (s.rowL2ctrl v).s1 = s.s1 := rfl
@[simp] theorem State.rowL2ctrl_s2 : (s.rowL2ctrl v).s2 = s.s2 := rfl
@[simp] theorem State.rowL2ctrl_pending : (s.rowL2ctrl v).pending = s.pending := rfl
@[simp] theorem State.rowL2ctrl_result : (s.rowL2ctrl v).result = s.result := rfl
@[simp] theorem State.rowL2ctrl_draws : (s.rowL2ctrl v).draws = s.draws := rfl

end rowL2ctrl

section rowRegsel
variable (s : State) (v : Byte)

@[simp] theorem State.rowRegsel_cfg : (s.rowRegsel v).cfg = s.cfg := rfl
@[simp] theorem State.rowRegsel_ram : (s.rowRegsel v).ram = s.ram := rfl
@[simp] theorem State.rowRegsel_slot : (s.rowRegsel v).slot = s.slot := rfl
@[simp] theorem State.rowRegsel_border : (s.rowRegsel v).border = s.border := rfl
@[simp] theorem State.rowRegsel_pagingLow : (s.rowRegsel v).pagingLow = s.pagingLow := rfl
@[simp] theorem State.rowRegsel_pagingHigh : (s.rowRegsel v).pagingHigh = s.pagingHigh := rfl
@[simp] theorem State.rowRegsel_subBank : (s.rowRegsel v).subBank = s.subBank := rfl
@[simp] theorem State.rowRegsel_shadowEnable : (s.rowRegsel v).shadowEnable = s.shadowEnable := rfl
@[simp] theorem State.rowRegsel_enable : (s.rowRegsel v).enable = s.enable := rfl
@[simp] theorem State.rowRegsel_write0Enable : (s.rowRegsel v).write0Enable = s.write0Enable := rfl
@[simp] theorem State.rowRegsel_regSelect : (s.rowRegsel v).regSelect = v := rfl
@[simp] theorem State.rowRegsel_bankStart : (s.rowRegsel v).bankStart = s.bankStart := rfl
@[simp] theorem State.rowRegsel_shadowBankStart : (s.rowRegsel v).shadowBankStart = s.shadowBankStart := rfl
@[simp] theorem State.rowRegsel_transparentIndex : (s.rowRegsel v).transparentIndex = s.transparentIndex := rfl
@[simp] theorem State.rowRegsel_redrawRequest : (s.rowRegsel v).redrawRequest = s.redrawRequest := rfl
@[simp] theorem State.rowRegsel_palette : (s.rowRegsel v).palette = s.palette := rfl
@[simp] theorem State.rowRegsel_flashToggle : (s.rowRegsel v).flashToggle = s.flashToggle := rfl
@[simp] theorem State.rowRegsel_tickCounter : (s.rowRegsel v).tickCounter = s.tickCounter := rfl
@[simp] theorem State.rowRegsel_fb : (s.rowRegsel v).fb = s.fb := rfl
@[simp] theorem State.rowRegsel_crc : (s.rowRegsel v).crc = s.crc := rfl
@[simp] theorem State.rowRegsel_s1 : (s.rowRegsel v).s1 = s.s1 := rfl
@[simp] theorem State.rowRegsel_s2 : (s.rowRegsel v).s2 = s.s2 := rfl
@[simp] theorem State.rowRegsel_pending : (s.rowRegsel v).pending = s.pending := rfl
@[simp] theorem State.rowRegsel_result : (s.rowRegsel v).result = s.result := rfl
@[simp] theorem State.rowRegsel_draws : (s.rowRegsel v).draws = s.draws := rfl

end rowRegsel

section rowRegdata12
variable (s : State) (v : Byte)

@[simp] theorem State.rowRegdata12_cfg : (s.rowRegdata12 v).cfg = s.cfg := rfl
@[simp] theorem State.rowRegdata12_ram : (s.rowRegdata12 v).ram = s.ram := rfl
@[simp] theorem State.rowRegdata12_slot : (s.rowRegdata12 v).slot = s.slot := rfl
@[simp] theorem State.rowRegdata12_border : (s.rowRegdata12 v).border = s.border := rfl
@[simp] theorem State.rowRegdata12_pagingLow : (s.rowRegdata12 v).pagingLow = s.pagingLow := rfl
@[simp] theorem State.rowRegdata12_pagingHigh : (s.rowRegdata12 v).pagingHigh = s.pagingHigh := rfl
@[simp] theorem State.rowRegdata12_subBank : (s.rowRegdata12 v).subBank = s.subBank := rfl
@[simp] theorem State.rowRegdata12_shadowEnable : (s.rowRegdata12 v).shadowEnable = s.shadowEnable := rfl
@[simp] theorem State.rowRegdata12_enable : (s.rowRegdata12 v).enable = s.enable := rfl
@[simp] theorem State.rowRegdata12_write0Enable : (s.rowRegdata12 v).write0Enable = s.write0Enable := rfl
@[simp] theorem State.rowRegdata12_regSelect : (s.rowRegdata12 v).regSelect = s.regSelect := rfl
@[simp] theorem State.rowRegdata12_bankStart : (s.rowRegdata12 v).bankStart = low5 v := rfl
@[simp] theorem State.rowRegdata12_shadowBankStart : (s.rowRegdata12 v).shadowBankStart = s.shadowBankStart := rfl
@[simp] theorem State.rowRegdata12_transparentIndex : (s.rowRegdata12 v).transparentIndex = s.transparentIndex := rfl
@[simp] theorem State.rowRegdata12_redrawRequest : (s.rowRegdata12 v).redrawRequest = true := rfl
@[simp] theorem State.rowRegdata12_palette : (s.rowRegdata12 v).palette = s.palette := rfl
@[simp] theorem State.rowRegdata12_flashToggle : (s.rowRegdata12 v).flashToggle = s.flashToggle := rfl
@[simp] theorem State.rowRegdata12_tickCounter : (s.rowRegdata12 v).tickCounter = s.tickCounter := rfl
@[simp] theorem State.rowRegdata12_fb : (s.rowRegdata12 v).fb = s.fb := rfl
@[simp] theorem State.rowRegdata12_crc : (s.rowRegdata12 v).crc = s.crc := rfl
@[simp] theorem State.rowRegdata12_s1 : (s.rowRegdata12 v).s1 = s.s1 := rfl
@[simp] theorem State.rowRegdata12_s2 : (s.rowRegdata12 v).s2 = s.s2 := rfl
@[simp] theorem State.rowRegdata12_pending : (s.rowRegdata12 v).pending = s.pending := rfl
@[simp] theorem State.rowRegdata12_result : (s.rowRegdata12 v).result = s.result := rfl
@[simp] theorem State.rowRegdata12_draws : (s.rowRegdata12 v).draws = s.draws := rfl

end rowRegdata12

section rowRegdata13
variable (s : State) (v : Byte)

@[simp] theorem State.rowRegdata13_cfg : (s.rowRegdata13 v).cfg = s.cfg := rfl
@[simp] theorem State.rowRegdata13_ram : (s.rowRegdata13 v).ram = s.ram := rfl
@[simp] theorem State.rowRegdata13_slot : (s.rowRegdata13 v).slot = s.slot := rfl
@[simp] theorem State.rowRegdata13_border : (s.rowRegdata13 v).border = s.border := rfl
@[simp] theorem State.rowRegdata13_pagingLow : (s.rowRegdata13 v).pagingLow = s.pagingLow := rfl
@[simp] theorem State.rowRegdata13_pagingHigh : (s.rowRegdata13 v).pagingHigh = s.pagingHigh := rfl
@[simp] theorem State.rowRegdata13_subBank : (s.rowRegdata13 v).subBank = s.subBank := rfl
@[simp] theorem State.rowRegdata13_shadowEnable : (s.rowRegdata13 v).shadowEnable = s.shadowEnable := rfl
@[simp] theorem State.rowRegdata13_enable : (s.rowRegdata13 v).enable = s.enable := rfl
@[simp] theorem State.rowRegdata13_write0Enable : (s.rowRegdata13 v).write0Enable = s.write0Enable := rfl
@[simp] theorem State.rowRegdata13_regSelect : (s.rowRegdata13 v).regSelect = s.regSelect := rfl
@[simp] theorem State.rowRegdata13_bankStart : (s.rowRegdata13 v).bankStart = s.bankStart := rfl
@[simp] theorem State.rowRegdata13_shadowBankStart : (s.rowRegdata13 v).shadowBankStart = low5 v := rfl
@[simp] theorem State.rowRegdata13_transparentIndex : (s.rowRegdata13 v).transparentIndex = s.transparentIndex := rfl
@[simp] theorem State.rowRegdata13_redrawRequest : (s.rowRegdata13 v).redrawRequest = true := rfl
@[simp] theorem State.rowRegdata13_palette : (s.rowRegdata13 v).palette = s.palette := rfl
@[simp] theorem State.rowRegdata13_flashToggle : (s.rowRegdata13 v).flashToggle = s.flashToggle := rfl
@[simp] theorem State.rowRegdata13_tickCounter : (s.rowRegdata13 v).tickCounter = s.tickCounter := rfl
@[simp] theorem State.rowRegdata13_fb : (s.rowRegdata13 v).fb = s.fb := rfl
@[simp] theorem State.rowRegdata13_crc : (s.rowRegdata13 v).crc = s.crc := rfl
@[simp] theorem State.rowRegdata13_s1 : (s.rowRegdata13 v).s1 = s.s1 := rfl
@[simp] theorem State.rowRegdata13_s2 : (s.rowRegdata13 v).s2 = s.s2 := rfl
@[simp] theorem State.rowRegdata13_pending : (s.rowRegdata13 v).pending = s.pending := rfl
@[simp] theorem State.rowRegdata13_result : (s.rowRegdata13 v).result = s.result := rfl
@[simp] theorem State.rowRegdata13_draws : (s.rowRegdata13 v).draws = s.draws := rfl

end rowRegdata13

section rowRegdata14
variable (s : State) (v : Byte)

@[simp] theorem State.rowRegdata14_cfg : (s.rowRegdata14 v).cfg = s.cfg := rfl
@[simp] theorem State.rowRegdata14_ram : (s.rowRegdata14 v).ram = s.ram := rfl
@[simp] theorem State.rowRegdata14_slot : (s.rowRegdata14 v).slot = s.slot := rfl
@[simp] theorem State.rowRegdata14_border : (s.rowRegdata14 v).border = s.border := rfl
@[simp] theorem State.rowRegdata14_pagingLow : (s.rowRegdata14 v).pagingLow = s.pagingLow := rfl
@[simp] theorem State.rowRegdata14_pagingHigh : (s.rowRegdata14 v).pagingHigh = s.pagingHigh := rfl
@[simp] theorem State.rowRegdata14_subBank : (s.rowRegdata14 v).subBank = s.subBank := rfl
@[simp] theorem State.rowRegdata14_shadowEnable : (s.rowRegdata14 v).shadowEnable = s.shadowEnable := rfl
@[simp] theorem State.rowRegdata14_enable : (s.rowRegdata14 v).enable = s.enable := rfl
@[simp] theorem State.rowRegdata14_write0Enable : (s.rowRegdata14 v).write0Enable = s.write0Enable := rfl
@[simp] theorem State.rowRegdata14_regSelect : (s.rowRegdata14 v).regSelect = s.regSelect := rfl
@[simp] theorem State.rowRegdata14_bankStart : (s.rowRegdata14 v).bankStart = s.bankStart := rfl
@[simp] theorem State.rowRegdata14_shadowBankStart : (s.rowRegdata14 v).shadowBankStart = s.shadowBankStart := rfl
@[simp] theorem State.rowRegdata14_transparentIndex : (s.rowRegdata14 v).transparentIndex = v := rfl
@[simp] theorem State.rowRegdata14_redrawRequest : (s.rowRegdata14 v).redrawRequest = s.redrawRequest := rfl
@[simp] theorem State.rowRegdata14_palette : (s.rowRegdata14 v).palette = s.palette := rfl
@[simp] theorem State.rowRegdata14_flashToggle : (s.rowRegdata14 v).flashToggle = s.flashToggle := rfl
@[simp] theorem State.rowRegdata14_tickCounter : (s.rowRegdata14 v).tickCounter = s.tickCounter := rfl
@[simp] theorem State.rowRegdata14_fb : (s.rowRegdata14 v).fb = s.fb := rfl
@[simp] theorem State.rowRegdata14_crc : (s.rowRegdata14 v).crc = s.crc := rfl
@[simp] theorem State.rowRegdata14_s1 : (s.rowRegdata14 v).s1 = s.s1 := rfl
@[simp] theorem State.rowRegdata14_s2 : (s.rowRegdata14 v).s2 = s.s2 := rfl
@[simp] theorem State.rowRegdata14_pending : (s.rowRegdata14 v).pending = s.pending := rfl
@[simp] theorem State.rowRegdata14_result : (s.rowRegdata14 v).result = s.result := rfl
@[simp] theorem State.rowRegdata14_draws : (s.rowRegdata14 v).draws = s.draws := rfl

end rowRegdata14

end Sys2Proof.Machine
end

