-- ==== Sys2Proof/Laws/Bits.lean ====
section
/-! SUPPORT. Pairs of bytes as 16-bit words, and the fields of addresses and data bytes as numbers. -/

namespace Sys2Proof.Machine

theorem toNat_pair (hi lo : Byte) : (hi ++ lo : BitVec 16).toNat = hi.toNat * 256 + lo.toNat := by
  rw [BitVec.toNat_append, ← Nat.shiftLeft_add_eq_or_of_lt lo.isLt, Nat.shiftLeft_eq]

/-- A field of a word is a quotient and a remainder. -/
theorem toNat_field {n : Nat} (v : BitVec n) (start len : Nat) :
    (v.extractLsb' start len).toNat = v.toNat / 2 ^ start % 2 ^ len := by
  rw [BitVec.extractLsb'_toNat, Nat.shiftRight_eq_div_pow]

theorem field_eq_ofNat {n : Nat} (v : BitVec n) (start len : Nat) :
    v.extractLsb' start len = BitVec.ofNat len (v.toNat / 2 ^ start) := by
  apply BitVec.eq_of_toNat_eq; rw [toNat_field, BitVec.toNat_ofNat]

@[simp] theorem extract_low_pair (hi lo : Byte) : (hi ++ lo : BitVec 16).extractLsb' 0 8 = lo := by
  apply BitVec.eq_of_toNat_eq
  have := hi.isLt; have := lo.isLt
  rw [toNat_field, toNat_pair]; omega

@[simp] theorem extract_high_pair (hi lo : Byte) : (hi ++ lo : BitVec 16).extractLsb' 8 8 = hi := by
  apply BitVec.eq_of_toNat_eq
  have := hi.isLt; have := lo.isLt
  rw [toNat_field, toNat_pair]; omega

/-- A word is its two bytes. -/
theorem pair_of_word (v : BitVec 16) : (v.extractLsb' 8 8 ++ v.extractLsb' 0 8 : BitVec 16) = v := by
  apply BitVec.eq_of_toNat_eq
  have := v.isLt
  rw [toNat_pair, toNat_field, toNat_field]; omega

/-- A pair is zero exactly when both bytes are. -/
theorem pair_eq_zero {hi lo : Byte} : (hi ++ lo : BitVec 16) = 0 ↔ hi = 0 ∧ lo = 0 := by
  rw [← BitVec.toNat_inj, ← BitVec.toNat_inj, ← BitVec.toNat_inj, toNat_pair]
  simp

theorem addrSlot_eq (a : Addr) : addrSlot a = BitVec.ofNat 2 (a.toNat / 16384) := field_eq_ofNat a 14 2

theorem addrOffset_eq (a : Addr) : addrOffset a = BitVec.ofNat 14 (a.toNat % 16384) := by
  apply BitVec.eq_of_toNat_eq; simp [addrOffset]

theorem addrSlot_eq_redirectSlot {a : Addr} : addrSlot a = redirectSlot ↔ a.toNat / 16384 = 1 := by
  have := a.isLt
  rw [addrSlot_eq, redirectSlot, ← BitVec.toNat_inj]
  simp; omega

theorem low3_eq (v : Byte) : low3 v = BitVec.ofNat 3 (v.toNat % 8) := by
  apply BitVec.eq_of_toNat_eq; simp [low3]

theorem low5_eq (v : Byte) : low5 v = BitVec.ofNat 5 (v.toNat % 32) := by
  apply BitVec.eq_of_toNat_eq; simp [low5]

theorem ctrlSubBank_eq (v : Byte) : ctrlSubBank v = BitVec.ofNat 2 (v.toNat / 64) := field_eq_ofNat v 6 2

/-- The low byte of a port number, as a number. -/
theorem low_byte_eq {p : Addr} {b : Byte} : p.extractLsb' 0 8 = b ↔ p.toNat % 256 = b.toNat := by
  rw [← BitVec.toNat_inj, toNat_field]; simp

end Sys2Proof.Machine
end

