-- ==== Sys2Proof/Laws/Decode.lean ====
section
/-! SUPPORT. What the field readers accept, both ways, and what a port write decodes to. -/

namespace Sys2Proof

@[simp] theorem Operand.bits_num {w : Nat} (v : BitVec w) : (Operand.num v.toNat).bits w = some v := by
  simp [Operand.bits, v.isLt]

@[simp] theorem Operand.flag_num (b : Bool) : (Operand.num (flagNat b)).flag = some b := by cases b <;> rfl

@[simp] theorem Operand.nat_num (n : Nat) : (Operand.num n).nat = some n := rfl

@[simp] theorem Operand.seq_bytes (bs : List Byte) : (Operand.bytes bs).seq = some bs := rfl

@[simp] theorem Operand.chunkType_bytes (t : ChunkType) : (Operand.bytes t.toBytes).chunkType = some t := rfl

theorem Operand.eq_of_bits {w : Nat} {o : Operand} {v : BitVec w} (h : o.bits w = some v) : o = .num v.toNat := by
  cases o with
  | bytes bs => simp [Operand.bits] at h
  | num n =>
    simp only [Operand.bits] at h
    split at h
    · cases h; simp [Nat.mod_eq_of_lt, *]
    · cases h

theorem Operand.eq_of_flag {o : Operand} {b : Bool} (h : o.flag = some b) : o = .num (flagNat b) := by
  unfold Operand.flag at h
  split at h <;> cases h <;> rfl

theorem Operand.eq_of_nat {o : Operand} {n : Nat} (h : o.nat = some n) : o = .num n := by
  cases o <;> cases h; rfl

theorem Operand.eq_of_seq {o : Operand} {bs : List Byte} (h : o.seq = some bs) : o = .bytes bs := by
  cases o <;> cases h; rfl

theorem Operand.eq_of_chunkType {o : Operand} {t : ChunkType} (h : o.chunkType = some t) : o = .bytes t.toBytes := by
  unfold Operand.chunkType at h
  split at h <;> cases h; rfl

theorem read0_eq_some {i j : Instr} {ops : List Operand} : read0 i ops = some j ↔ ops = [] ∧ i = j := by
  cases ops <;> simp [read0]

theorem read1_eq_some {α : Type} {f : Operand → Option α} {mk : α → Instr} {j : Instr} {ops : List Operand} :
    read1 f mk ops = some j ↔ ∃ a x, ops = [a] ∧ f a = some x ∧ mk x = j := by
  match ops with
  | [] => simp [read1]
  | [a] => simp [read1]
  | _ :: _ :: _ => simp [read1]

theorem read2_eq_some {α β : Type} {f : Operand → Option α} {g : Operand → Option β} {mk : α → β → Instr} {j : Instr}
    {ops : List Operand} :
    read2 f g mk ops = some j ↔ ∃ a b x y, ops = [a, b] ∧ f a = some x ∧ g b = some y ∧ mk x y = j := by
  cases ops with
  | nil => simp [read2]
  | cons a rest =>
    simp only [read2, Option.bind_eq_some_iff, read1_eq_some]
    constructor
    · rintro ⟨x, hx, b, y, rfl, hy, rfl⟩; exact ⟨a, b, x, y, rfl, hx, hy, rfl⟩
    · rintro ⟨a', b, x, y, h, hx, hy, rfl⟩; cases h; exact ⟨x, hx, b, y, rfl, hy, rfl⟩

theorem read3_eq_some {α β γ : Type} {f : Operand → Option α} {g : Operand → Option β} {h : Operand → Option γ}
    {mk : α → β → γ → Instr} {j : Instr} {ops : List Operand} :
    read3 f g h mk ops = some j ↔
      ∃ a b c x y z, ops = [a, b, c] ∧ f a = some x ∧ g b = some y ∧ h c = some z ∧ mk x y z = j := by
  cases ops with
  | nil => simp [read3]
  | cons a rest =>
    simp only [read3, Option.bind_eq_some_iff, read2_eq_some]
    constructor
    · rintro ⟨x, hx, b, c, y, z, rfl, hy, hz, rfl⟩; exact ⟨a, b, c, x, y, z, rfl, hx, hy, hz, rfl⟩
    · rintro ⟨a', b, c, x, y, z, e, hx, hy, hz, rfl⟩; cases e; exact ⟨x, hx, b, c, y, z, rfl, hy, hz, rfl⟩

theorem read5_eq_some {α β γ δ ε : Type} {f : Operand → Option α} {g : Operand → Option β} {h : Operand → Option γ}
    {k : Operand → Option δ} {l : Operand → Option ε} {mk : α → β → γ → δ → ε → Instr} {j : Instr}
    {ops : List Operand} :
    read5 f g h k l mk ops = some j ↔ ∃ a b c d e x y z u v, ops = [a, b, c, d, e] ∧ f a = some x ∧ g b = some y ∧
      h c = some z ∧ k d = some u ∧ l e = some v ∧ mk x y z u v = j := by
  match ops with
  | [] => simp [read5]
  | [_] => simp [read5]
  | a :: b :: rest =>
    simp only [read5, Option.bind_eq_some_iff, read3_eq_some]
    constructor
    · rintro ⟨x, hx, y, hy, c, d, e, z, u, v, rfl, hz, hu, hv, rfl⟩
      exact ⟨a, b, c, d, e, x, y, z, u, v, rfl, hx, hy, hz, hu, hv, rfl⟩
    · rintro ⟨a', b', c, d, e, x, y, z, u, v, eq, hx, hy, hz, hu, hv, rfl⟩
      cases eq
      exact ⟨x, hx, y, hy, c, d, e, z, u, v, rfl, hz, hu, hv, rfl⟩

/-- A record decodes to `i` exactly when its operands do. -/
theorem decode_eq_ok {ctx : DecodeCtx} {t : Transaction} {i : Instr} :
    decode ctx t = .ok i ↔ decodeOperands ctx t.kind t.operands = some i := by
  unfold decode
  split <;> simp_all

/-- The record of a port write decodes to the row the context selects. -/
@[simp] theorem decode_encodePortWrite (ctx : DecodeCtx) (p : Addr) (v : Byte) :
    decode ctx (encodePortWrite p v) = .ok (decodePortWrite ctx p v) := by
  simp [decode, encodePortWrite, decodeOperands, read2, read1]

/-- A port write's record is the record of the row it decodes to. -/
theorem encode_decodePortWrite (ctx : DecodeCtx) (p : Addr) (v : Byte) :
    encode (decodePortWrite ctx p v) = encodePortWrite p v := by
  unfold decodePortWrite selectRow
  split
  · rename_i hb
    simp only [rowInstr, encode]
    rw [← hb, Machine.pair_of_word]
  · repeat' split
    all_goals simp_all [rowInstr, encode]

/-- The context selects the row a port write decodes to. -/
theorem selectedIn_decodePortWrite (ctx : DecodeCtx) (p : Addr) (v : Byte) :
    (decodePortWrite ctx p v).selectedIn ctx = true := by
  unfold decodePortWrite selectRow
  repeat' split
  all_goals simp_all [rowInstr, Instr.selectedIn, PortRow.condition]
  all_goals cases hm : ctx.map1mb <;> cases ht : ctx.hasL2Transp <;> simp_all

end Sys2Proof
end

