-- ==== Sys2Proof/Laws/Memory.lean ====
section
/-! SUPPORT. What a write does to every byte of RAM, and that it keeps the canonical form. -/

namespace Sys2Proof.Machine

@[simp] theorem Memory.read_nil (a : Nat) : Memory.read [] a = 0 := rfl

theorem Memory.read_cons (c : Host.Cell) (m : Memory) (a : Nat) :
    Memory.read (c :: m) a = if a = c.1 then c.2 else Memory.read m a := rfl

/-- A key that no cell carries reads as 0. -/
theorem Memory.read_of_absent {m : Memory} {a : Nat} (h : ∀ c ∈ m, c.1 ≠ a) : Memory.read m a = 0 := by
  induction m with
  | nil => rfl
  | cons c m ih =>
    have hc := h c (by simp)
    rw [Memory.read_cons, if_neg (by omega), ih fun d hd => h d (by simp [hd])]

theorem Memory.read_filter (m : Memory) (a b : Nat) :
    Memory.read (m.filter fun c => c.1 ≠ a) b = if b = a then 0 else Memory.read m b := by
  induction m with
  | nil => simp
  | cons c m ih =>
    by_cases hc : c.1 = a
    · by_cases hb : b = a
      · simpa [hc, hb] using ih
      · rw [List.filter_cons_of_neg (by simpa using hc), ih, if_neg hb, if_neg hb, Memory.read_cons,
          if_neg (by omega)]
    · rw [List.filter_cons_of_pos (by simpa using hc), Memory.read_cons, ih, Memory.read_cons]
      by_cases hb : b = a
      · simp [hb, Ne.symm hc]
      · simp [hb]

theorem Memory.mem_insert {m : Memory} {a : Nat} {v : Byte} {c : Host.Cell} :
    c ∈ Memory.insert a v m ↔ c = (a, v) ∨ c ∈ m := by
  induction m with
  | nil => simp [Memory.insert]
  | cons d m ih =>
    unfold Memory.insert
    split
    · simp
    · simp only [List.mem_cons, ih]; tauto

/-- Inserting at a key no cell carries changes what that key reads as, and nothing else. -/
theorem Memory.read_insert {m : Memory} {a : Nat} {v : Byte} (h : ∀ c ∈ m, c.1 ≠ a) (b : Nat) :
    Memory.read (Memory.insert a v m) b = if b = a then v else Memory.read m b := by
  induction m with
  | nil => simp [Memory.insert, Memory.read_cons]
  | cons d m ih =>
    have hd := h d (by simp)
    unfold Memory.insert
    split
    · simp [Memory.read_cons]
    · rw [Memory.read_cons, ih fun c hc => h c (by simp [hc]), Memory.read_cons]
      by_cases hb : b = a
      · simp [hb, Ne.symm hd]
      · simp [hb]

/-- A read after a write: the byte written at its key, the old byte everywhere else. -/
@[simp] theorem Memory.read_write (m : Memory) (a b : Nat) (v : Byte) :
    Memory.read (Memory.write m a v) b = if b = a then v else Memory.read m b := by
  simp only [Memory.write]
  split
  · rw [Memory.read_filter]; split <;> simp_all
  · rw [Memory.read_insert (by simp), Memory.read_filter]; split <;> simp_all

theorem Memory.insert_pairwise {m : Memory} {a : Nat} {v : Byte} (h : ∀ c ∈ m, c.1 ≠ a)
    (hm : m.Pairwise fun x y => x.1 < y.1) : (Memory.insert a v m).Pairwise fun x y => x.1 < y.1 := by
  induction m with
  | nil => simp [Memory.insert]
  | cons d m ih =>
    have hd := h d (by simp)
    obtain ⟨hlt, hm'⟩ := List.pairwise_cons.1 hm
    unfold Memory.insert
    split
    · refine List.pairwise_cons.2 ⟨fun c hc => ?_, hm⟩
      rcases List.mem_cons.1 hc with rfl | hc
      · assumption
      · have := hlt c hc; simp only at this ⊢; omega
    · refine List.pairwise_cons.2 ⟨fun c hc => ?_, ih (fun c hc => h c (by simp [hc])) hm'⟩
      rcases Memory.mem_insert.1 hc with rfl | hc
      · simp only; omega
      · exact hlt c hc

/-- A write keeps the canonical form. -/
theorem Memory.write_wf {m : Memory} (h : Memory.wf m) (a : Nat) (v : Byte) : Memory.wf (Memory.write m a v) := by
  have hf : Memory.wf (m.filter fun c => c.1 ≠ a) :=
    ⟨h.1.filter _, fun c hc => h.2 c (List.mem_filter.1 hc).1⟩
  simp only [Memory.write]
  split
  · exact hf
  · refine ⟨Memory.insert_pairwise (by simp) hf.1, fun c hc => ?_⟩
    rcases Memory.mem_insert.1 hc with rfl | hc
    · assumption
    · exact hf.2 c hc

/-- A write adds no key but its own. -/
theorem Memory.mem_write {m : Memory} {a : Nat} {v : Byte} {c : Host.Cell} (h : c ∈ Memory.write m a v) :
    c.1 = a ∨ c ∈ m := by
  simp only [Memory.write] at h
  split at h
  · exact .inr (List.mem_filter.1 h).1
  · rcases Memory.mem_insert.1 h with rfl | h
    · exact .inl rfl
    · exact .inr (List.mem_filter.1 h).1

theorem Memory.wf_nil : Memory.wf [] := by simp [Memory.wf]

/-- Different locations have different keys. -/
@[simp] theorem Loc.key_inj {l k : Loc} : l.key = k.key ↔ l = k := by
  constructor
  · intro h
    obtain ⟨b, o⟩ := l
    obtain ⟨b', o'⟩ := k
    simp only [Loc.key, pageSize] at h
    have ho := o.isLt
    have ho' := o'.isLt
    have hb : b = b' := by omega
    have : o = o' := BitVec.eq_of_toNat_eq (by omega)
    rw [hb, this]
  · rintro rfl; rfl

/-- The key of a location in an existing bank lies in the bank table. -/
theorem Loc.key_lt {l : Loc} {n : Nat} (h : l.bank < n) : l.key < n * pageSize := by
  have := l.offset.isLt
  simp only [Loc.key, pageSize]
  omega

end Sys2Proof.Machine
end

