-- ==== Sys2Proof/Laws/Ops.lean ====
section
/-! SUPPORT. One lemma per shared operation that says what it can do. -/

namespace Sys2Proof.Machine

@[simp] theorem State.ramByte_setRamByte (s : State) (l k : Loc) (v : Byte) :
    (s.setRamByte l v).ramByte k = if k = l then v else s.ramByte k := by
  simp [State.ramByte]

@[simp] theorem State.ramByte_writeByte (s : State) (a : Addr) (v : Byte) (k : Loc) :
    (s.writeByte a v).ramByte k = if k = s.translate a true then v else s.ramByte k :=
  s.ramByte_setRamByte _ _ _

/-- RAM bytes depend on `ram` alone. -/
theorem State.ramByte_congr {s t : State} (h : t.ram = s.ram) (l : Loc) : t.ramByte l = s.ramByte l := by
  simp [State.ramByte, h]

/-- Writing RAM does not change translation (20_memory.md R66). -/
@[simp] theorem State.translate_setRamByte (s : State) (l : Loc) (v : Byte) (a : Addr) (w : Bool) :
    (s.setRamByte l v).translate a w = s.translate a w := rfl

@[simp] theorem State.translate_writeByte (s : State) (a : Addr) (v : Byte) (b : Addr) (w : Bool) :
    (s.writeByte a v).translate b w = s.translate b w := rfl

/-- A read is never redirected (20_memory.md R67). -/
@[simp] theorem State.translate_read (s : State) (a : Addr) :
    s.translate a false = ⟨s.slotBank (addrSlot a), addrOffset a⟩ := rfl

@[simp] theorem State.translate_offset (s : State) (a : Addr) (w : Bool) : (s.translate a w).offset = addrOffset a := by
  unfold State.translate; split <;> rfl

/-- Without the redirect a write goes where a read looks (20_memory.md R67). -/
theorem State.translate_write {s : State} {a : Addr} (h : s.redirects a = false) :
    s.translate a true = s.translate a false := by
  simp [State.translate, h]

/-- Consecutive addresses have different offsets, so their locations differ. -/
theorem addrOffset_succ_ne (a : Addr) : addrOffset (a + 1) ≠ addrOffset a := by
  intro h
  have := congrArg BitVec.toNat h
  simp [addrOffset] at this
  have := a.isLt
  omega

/-- What a write of several bytes leaves as it was. -/
theorem State.writeBytes_eq (s : State) (a : Addr) (bs : List Byte) :
    s.writeBytes a bs = { s with ram := (s.writeBytes a bs).ram } := by
  induction bs generalizing s a with
  | nil => rfl
  | cons b bs ih => rw [State.writeBytes, ih]; rfl

theorem State.writeBankBytes_eq (s : State) (b o : Nat) (bs : List Byte) :
    s.writeBankBytes b o bs = { s with ram := (s.writeBankBytes b o bs).ram } := by
  induction bs generalizing s o with
  | nil => rfl
  | cons v bs ih => rw [State.writeBankBytes, ih]; rfl

/-- A property of the state that every byte write keeps, every bulk write keeps. -/
theorem State.writeBytes_induct {P : State → Prop} (hP : ∀ s a v, P s → P (s.writeByte a v)) (s : State) (a : Addr)
    (bs : List Byte) (h : P s) : P (s.writeBytes a bs) := by
  induction bs generalizing s a with
  | nil => exact h
  | cons b bs ih => exact ih _ _ (hP _ _ _ h)

theorem State.writeBankBytes_induct {P : State → Prop} {b : Nat}
    (hP : ∀ s (o : BitVec 14) v, P s → P (s.setRamByte ⟨b, o⟩ v)) (s : State) (o : Nat) (bs : List Byte) (h : P s) :
    P (s.writeBankBytes b o bs) := by
  induction bs generalizing s o with
  | nil => exact h
  | cons v bs ih => exact ih _ _ (hP _ _ _ h)

/-- Bytes outside the locations written keep their value. -/
theorem State.writeBytes_other (s : State) (a : Addr) (bs : List Byte) (l : Loc)
    (h : ∀ i, i < bs.length → s.translate (a + BitVec.ofNat 16 i) true ≠ l) :
    (s.writeBytes a bs).ramByte l = s.ramByte l := by
  induction bs generalizing s a with
  | nil => rfl
  | cons b bs ih =>
    rw [State.writeBytes, ih]
    · have := h 0 (by simp)
      simp at this
      simp [Ne.symm this]
    · intro i hi
      have := h (i + 1) (by simpa using hi)
      rw [State.translate_writeByte]
      rwa [show a + 1 + BitVec.ofNat 16 i = a + BitVec.ofNat 16 (i + 1) by
        rw [Nat.add_comm i 1, BitVec.ofNat_add]; simp [BitVec.add_assoc]]

/-- A byte written last at its location is what the location holds afterwards. -/
theorem State.writeBytes_last (s : State) (a : Addr) (bs : List Byte) (i : Nat) (hi : i < bs.length)
    (h : ∀ j, i < j → j < bs.length →
      s.translate (a + BitVec.ofNat 16 j) true ≠ s.translate (a + BitVec.ofNat 16 i) true) :
    (s.writeBytes a bs).ramByte (s.translate (a + BitVec.ofNat 16 i) true) = bs[i] := by
  induction bs generalizing s a i with
  | nil => simp at hi
  | cons b bs ih =>
    have step : ∀ k : Nat, a + 1 + BitVec.ofNat 16 k = a + BitVec.ofNat 16 (k + 1) := fun k => by
      rw [Nat.add_comm k 1, BitVec.ofNat_add]; simp [BitVec.add_assoc]
    rw [State.writeBytes]
    cases i with
    | zero =>
      rw [State.writeBytes_other]
      · simp
      · intro j hj
        have := h (j + 1) (by omega) (by simpa using hj)
        rwa [State.translate_writeByte, step]
    | succ i =>
      have := ih (s.writeByte a b) (a + 1) i (by simpa using hi) (fun j hij hj => by
        have := h (j + 1) (by omega) (by simpa using hj)
        rwa [State.translate_writeByte, State.translate_writeByte, step, step])
      rw [State.translate_writeByte, step] at this
      simpa using this

/-- Bytes outside the run of offsets written in a bank keep their value. -/
theorem State.writeBankBytes_other (s : State) (b o : Nat) (bs : List Byte) (l : Loc)
    (h : ∀ i, i < bs.length → (⟨b, BitVec.ofNat 14 (o + i)⟩ : Loc) ≠ l) :
    (s.writeBankBytes b o bs).ramByte l = s.ramByte l := by
  induction bs generalizing s o with
  | nil => rfl
  | cons v bs ih =>
    rw [State.writeBankBytes, ih]
    · have := h 0 (by simp)
      simp only [Nat.add_zero] at this
      simp [Ne.symm this]
    · intro i hi
      have := h (i + 1) (by simpa using hi)
      rwa [show o + 1 + i = o + (i + 1) by omega]

/-- Every byte written inside one page is what its location holds afterwards. -/
theorem State.writeBankBytes_at (s : State) (b o : Nat) (bs : List Byte) (hlen : o + bs.length ≤ pageSize) (i : Nat)
    (hi : i < bs.length) : (s.writeBankBytes b o bs).ramByte ⟨b, BitVec.ofNat 14 (o + i)⟩ = bs[i] := by
  induction bs generalizing s o i with
  | nil => simp at hi
  | cons v bs ih =>
    simp only [pageSize, List.length_cons] at hlen
    rw [State.writeBankBytes]
    cases i with
    | zero =>
      rw [State.writeBankBytes_other]
      · simp
      · intro j hj
        simp only [Nat.add_zero, ne_eq, Loc.mk.injEq, true_and, ← BitVec.toNat_inj, BitVec.toNat_ofNat]
        omega
    | succ i =>
      have := ih (s.setRamByte ⟨b, BitVec.ofNat 14 o⟩ v) (o + 1) (by simp only [pageSize]; omega) i (by simpa using hi)
      rw [show o + 1 + i = o + (i + 1) by omega] at this
      simpa using this

/-- What the effect of a port row leaves alone: everything but the slot table, the port registers and the redraw
request (10_state.md R33). -/
theorem State.rowEffect_frame (s : State) (v : Byte) (row : PortRow) :
    s.rowEffect v row = { s with
      slot := (s.rowEffect v row).slot
      border := (s.rowEffect v row).border
      pagingLow := (s.rowEffect v row).pagingLow
      pagingHigh := (s.rowEffect v row).pagingHigh
      subBank := (s.rowEffect v row).subBank
      shadowEnable := (s.rowEffect v row).shadowEnable
      enable := (s.rowEffect v row).enable
      write0Enable := (s.rowEffect v row).write0Enable
      regSelect := (s.rowEffect v row).regSelect
      bankStart := (s.rowEffect v row).bankStart
      shadowBankStart := (s.rowEffect v row).shadowBankStart
      transparentIndex := (s.rowEffect v row).transparentIndex
      redrawRequest := (s.rowEffect v row).redrawRequest } := by
  cases row <;> rfl

/-- An encoder's delivery changes the model's own fields alone: the bytes, or AllocationFailed. -/
theorem State.deliverEncoded_eq (s : State) (bs : List Byte) :
    s.deliverEncoded bs = { s with
      result := if s.allocationFails then .failed .allocationFailed else .bytes bs
      draws := if s.cfg.allocCanFail then s.draws + 1 else s.draws } := by
  unfold State.deliverEncoded State.countDraw State.fail State.deliver
  split <;> split <;> rfl

/-- The decode context is the three items it names (30_encoding.md R99). -/
theorem State.decodeCtx_eq (s : State) :
    s.decodeCtx = ⟨s.cfg.map1mb, s.cfg.hasL2Transp, s.regSelect⟩ := rfl

end Sys2Proof.Machine
end

