-- ==== Sys2Proof/Laws/Ports.lean ====
section
/-! SUPPORT. The row that each port number of the decode map selects, as one lemma per port, and the effect of a write to
it. -/

namespace Sys2Proof

/-- The mask of OUT.BORDER keeps the low byte of the port number (30_encoding.md R94). -/
theorem and_border_mask (p : Addr) : (p &&& 0x00FF#16) = 0x00FE#16 ↔ p.extractLsb' 0 8 = 0xFE#8 := by
  rw [Machine.low_byte_eq, ← BitVec.toNat_inj, BitVec.toNat_and]
  have := Nat.and_two_pow_sub_one_eq_mod p.toNat 8
  simp at this ⊢; rw [this]

theorem and_full_mask (p : Addr) : p &&& 0xFFFF#16 = p := by
  have := BitVec.and_allOnes (x := p); simpa using this

theorem PortRow.accepts_border (ctx : DecodeCtx) (p : Addr) :
    PortRow.border.accepts ctx p = true ↔ p.extractLsb' 0 8 = Machine.portBorderLow := by
  simp [PortRow.accepts, PortRow.mask, PortRow.pattern, PortRow.condition, and_border_mask, Machine.portBorderLow]

/-- Every other row of the map matches all 16 bits. -/
theorem PortRow.accepts_exact (ctx : DecodeCtx) (p : Addr) {row : PortRow} (h1 : row ≠ .border) (h2 : row ≠ .none) :
    row.accepts ctx p = true ↔ p = row.pattern ∧ row.condition ctx = true := by
  cases row <;> simp_all [PortRow.accepts, PortRow.mask, and_full_mask]

theorem selectRow_border (ctx : DecodeCtx) (hi : Byte) : selectRow ctx (hi ++ Machine.portBorderLow) = .border := by
  rw [selectRow, if_pos (Machine.extract_low_pair hi Machine.portBorderLow)]

theorem selectRow_pagelo (ctx : DecodeCtx) :
    selectRow ctx Machine.portPagelo = if ctx.map1mb then .pagelo else .none := by
  obtain ⟨m, t, r⟩ := ctx; cases m <;> rfl

theorem selectRow_pagehi (ctx : DecodeCtx) :
    selectRow ctx Machine.portPagehi = if ctx.map1mb then .pagehi else .none := by
  obtain ⟨m, t, r⟩ := ctx; cases m <;> rfl

theorem selectRow_l2ctrl (ctx : DecodeCtx) : selectRow ctx Machine.portL2ctrl = .l2ctrl := by
  obtain ⟨m, t, r⟩ := ctx; cases m <;> rfl

theorem selectRow_regsel (ctx : DecodeCtx) : selectRow ctx Machine.portRegsel = .regsel := by
  obtain ⟨m, t, r⟩ := ctx; cases m <;> rfl

theorem selectRow_rsvd (ctx : DecodeCtx) : selectRow ctx Machine.portRsvd = .rsvd := by
  obtain ⟨m, t, r⟩ := ctx; cases m <;> rfl

/-- The data port selects by the latched register index (30_encoding.md R95). -/
theorem selectRow_regdata (ctx : DecodeCtx) :
    selectRow ctx Machine.portRegdata =
      if ctx.regSelect = 0x12 then .regdata12
      else if ctx.regSelect = 0x13 then .regdata13
      else if ctx.regSelect = 0x14 ∧ ctx.hasL2Transp = true then .regdata14
      else .regdataNone := by
  simp [selectRow, Machine.portBorderLow, Machine.portPagelo, Machine.portPagehi, Machine.portL2ctrl,
    Machine.portRegsel, Machine.portRegdata]

/-- The data port selects no register exactly when none of the three conditions holds (41_port_ops.md R149). -/
theorem selectRow_regdataNone {ctx : DecodeCtx} (h : PortRow.condition ctx .regdataNone = true) :
    selectRow ctx Machine.portRegdata = .regdataNone := by
  obtain ⟨m, t, r⟩ := ctx
  simp only [PortRow.condition] at h
  rw [selectRow_regdata]
  cases t <;> simp_all

end Sys2Proof

namespace Sys2Proof.Machine

/-- A port write has the effect of the row it selects (41_port_ops.md R140). -/
theorem State.portOut_of {s : State} {p : Addr} {row : PortRow} (h : selectRow s.decodeCtx p = row) (v : Byte) :
    s.portOut p v = s.rowEffect v row := by
  rw [State.portOut, h]

@[simp] theorem State.rowEffect_deliver (s : State) (r : Result) (v : Byte) (row : PortRow) :
    (s.deliver r).rowEffect v row = (s.rowEffect v row).deliver r := by
  cases row <;> rfl

/-- A port write does not read the result of the operation before it. -/
@[simp] theorem State.portOut_deliver (s : State) (r : Result) (p : Addr) (v : Byte) :
    (s.deliver r).portOut p v = (s.portOut p v).deliver r :=
  s.rowEffect_deliver r v _

@[simp] theorem State.deliver_deliver (s : State) (q r : Result) : (s.deliver q).deliver r = s.deliver r := rfl

/-- A write to the select port latches the index (41_port_ops.md R145). -/
@[simp] theorem State.portOut_regsel (s : State) (v : Byte) : s.portOut portRegsel v = s.rowRegsel v := by
  rw [State.portOut, selectRow_regsel]; rfl

/-- The bank paging leaves in slot 3, as a number (41_port_ops.md R143). -/
theorem pagedBank_eq (low : BitVec 3) (v : Byte) :
    pagedBank low (low3 v) = BitVec.ofNat 6 (low.toNat + v.toNat % 8 * 8) := by
  apply BitVec.eq_of_toNat_eq; simp [pagedBank, low3]

/-- One bit of a data byte, as a number. -/
theorem bit_eq_div (v : Byte) (i : Nat) : v.getLsbD i = decide (v.toNat / 2 ^ i % 2 = 1) := by
  simp [BitVec.getLsbD, Nat.testBit_eq_decide_div_mod_eq]

end Sys2Proof.Machine
end

