-- ==== Sys2Proof/Laws/Video.lean ====
section
/-! SUPPORT. What the two renders leave at a frame position, and the shape they keep. -/

namespace Sys2Proof.Machine

theorem attrInk_toNat (attr : Byte) : (attrInk attr).toNat = attr.toNat % 8 + attr.toNat / 64 % 2 * 8 := by
  revert attr; decide

theorem attrPaper_toNat (attr : Byte) : (attrPaper attr).toNat = attr.toNat / 8 % 8 := by
  revert attr; decide

/-- The bitmap bit of a column, most significant first (42_video_ops.md R173). -/
theorem bitmapBit_eq (bmp : Byte) (c : Nat) : bitmapBit bmp c = bmp.getLsbD (7 - c % 8) :=
  congrArg (fun n => bmp.getLsbD (7 - n)) (Nat.and_two_pow_sub_one_eq_mod c 3)

/-- The index a bitmap bit shows: ink for 1 and paper for 0, the other way round in a flashing cell while the toggle is
active (42_video_ops.md R174). -/
theorem cellIndex_toNat (flash bit : Bool) (attr : Byte) :
    (if bit then (cellIndices flash attr).1 else (cellIndices flash attr).2).toNat =
      if bit != (attr.getLsbD 7 && flash) then (attrInk attr).toNat else (attrPaper attr).toNat := by
  unfold cellIndices attrFlash
  generalize attr.getLsbD 7 = a
  cases a <;> cases flash <;> cases bit <;> rfl

/-- The frame position lies in the visible area, as bounds on numbers. -/
theorem inScreen_iff {c : Config} {row col : Nat} : inScreen c row col = true ↔
    c.borderH ≤ row ∧ row < c.borderH + 192 ∧ c.borderW ≤ col ∧ col < c.borderW + 256 := by
  simp only [inScreen, Bool.and_eq_true, decide_eq_true_eq, and_assoc]; rfl

/-- RENDERBASE writes every element of the frame, and the frame has no other (42_video_ops.md R173). -/
theorem State.renderBase_fbPixel (s : State) (row col : Nat) : s.renderBase.fbPixel row col =
    if row < 192 + 2 * s.cfg.borderH ∧ col < 256 + 2 * s.cfg.borderW then some (s.basePixel row col) else none := by
  simp only [State.fbPixel, State.renderBase, List.getElem?_map, fbHeight, fbWidth, screenH, screenW]
  by_cases hr : row < 192 + 2 * s.cfg.borderH
  · rw [List.getElem?_range hr]
    by_cases hc : col < 256 + 2 * s.cfg.borderW
    · simp [hr, hc]
    · simp [hc]
  · rw [List.getElem?_eq_none (by simpa using Nat.le_of_not_lt hr)]
    simp [hr]

/-- RENDERLAYER2 overlays each element on its own (42_video_ops.md R177). -/
theorem State.renderLayer2_fbPixel (s : State) (row col : Nat) : s.renderLayer2.fbPixel row col =
    if s.enable then (s.fbPixel row col).map (s.overlayPixel row col) else s.fbPixel row col := by
  unfold State.renderLayer2
  split
  · simp only [State.fbPixel, List.getElem?_mapIdx]
    cases s.fb[row]? <;> simp [List.getElem?_mapIdx]
  · rfl

/-- Both renders write the frame alone. -/
theorem State.renderBase_eq (s : State) : s.renderBase = { s with fb := s.renderBase.fb } := rfl

theorem State.renderLayer2_eq (s : State) : s.renderLayer2 = { s with fb := s.renderLayer2.fb } := by
  unfold State.renderLayer2; split <;> rfl

/-- The frame after RENDERBASE has the size of 10_state.md R37. -/
theorem State.renderBase_shape (s : State) : s.renderBase.fb.length = fbHeight s.cfg ∧
    ∀ row ∈ s.renderBase.fb, row.length = fbWidth s.cfg := by
  refine ⟨by simp [State.renderBase], fun row h => ?_⟩
  simp only [State.renderBase, List.mem_map] at h
  obtain ⟨_, _, rfl⟩ := h
  simp

/-- RENDERLAYER2 keeps the size of the frame. -/
theorem State.renderLayer2_shape (s : State) : s.renderLayer2.fb.length = s.fb.length ∧
    ∀ w, (∀ row ∈ s.fb, row.length = w) → ∀ row ∈ s.renderLayer2.fb, row.length = w := by
  unfold State.renderLayer2
  split
  · refine ⟨by simp, fun w h row hr => ?_⟩
    obtain ⟨i, hi, rfl⟩ := List.mem_mapIdx.1 hr
    simpa using h _ (List.getElem_mem hi)
  · exact ⟨rfl, fun _ h => h⟩

/-- The renders depend on RAM, the border, the Layer2 registers, the palette, the flash toggle and the parameters alone. -/
theorem State.basePixel_congr {s t : State} (hc : t.cfg = s.cfg) (hr : t.ram = s.ram) (hb : t.border = s.border)
    (hf : t.flashToggle = s.flashToggle) (row col : Nat) : t.basePixel row col = s.basePixel row col := by
  obtain ⟨⟩ := s; obtain ⟨⟩ := t; subst hc hr hb hf; rfl

/-- A flash tick, as numbers (42_video_ops.md R181). -/
theorem State.flashTick_eq (s : State) : s.flashTick =
    if s.tickCounter.toNat = 15 then { s with tickCounter := 0, flashToggle := !s.flashToggle, redrawRequest := true }
    else { s with tickCounter := BitVec.ofNat 4 (s.tickCounter.toNat + 1) } := by
  have h : s.tickCounter = lastTick ↔ s.tickCounter.toNat = 15 := by rw [← BitVec.toNat_inj]; rfl
  unfold State.flashTick
  by_cases ht : s.tickCounter.toNat = 15
  · rw [if_pos (h.2 ht), if_pos ht]; rfl
  · rw [if_neg fun e => ht (h.1 e), if_neg ht]
    congr 1

end Sys2Proof.Machine
end

