-- ==== Sys2Proof/Laws/Exec.lean ====
section
/-! SUPPORT. What a performed operation can do, said once: an invariant of the machine needs one case for each of the
ten effects, not one for each of the 44 operations. -/

namespace Sys2Proof.Machine

/-- Several bytes of RAM written, one after another. -/
def State.setRamBytes (s : State) (ws : List (Loc × Byte)) : State := ws.foldl (fun u w => u.setRamByte w.1 w.2) s

/-- The effects an operation that answers a next state can have. -/
inductive Effect (i : Instr) (s : State) : State → Prop where
  /-- A result, and nothing else. -/
  | deliver (r : Result) : Effect i s (s.deliver r)
  /-- The output of an encoder, or AllocationFailed. -/
  | encoded (bs : List Byte) : Effect i s (s.deliverEncoded bs)
  /-- Bytes of RAM, each in a bank of the table or of a slot. -/
  | ram (ws : List (Loc × Byte)) (r : Result) (hi : i.writesRam = true)
      (hb : ∀ w ∈ ws, w.1.bank < s.cfg.nbanks ∨ ∃ j, w.1.bank = s.slotBank j) :
      Effect i s ((s.setRamBytes ws).deliver r)
  /-- The bytes of a bulk write, and the redraw request. -/
  | bulk (a : Addr) (bs : List Byte) (ws : List (Loc × Byte)) (hi : i = .bulkwr a bs)
      (hl : a.toNat + bs.length ≤ 65536) (hb : ∀ w ∈ ws, w.1.bank < s.cfg.nbanks ∨ ∃ j, w.1.bank = s.slotBank j) :
      Effect i s ((s.setRamBytes ws).requestRedraw.deliver .ok)
  /-- The port write that the operation's own record names. -/
  | port (p : Addr) (v : Byte) (hi : i.writesPorts = true) (he : encode i = encodePortWrite p v) :
      Effect i s ((s.portOut p v).deliver .none)
  /-- WRITEREG. -/
  | writereg (r v : Byte) (hi : i = .writereg r v) :
      Effect i s (((s.rowRegsel r).portOut portRegdata v).deliver .none)
  /-- READREG. -/
  | readreg (r : Byte) (hi : i = .readreg r) : Effect i s ((s.rowRegsel r).deliver (.byte 0))
  /-- A frame, of the size the frame had or of the size of the parameters. -/
  | frame (fb : List (List Rgb)) (hi : i.writesFrame = true)
      (hf : (fb.length = fbHeight s.cfg ∧ ∀ row ∈ fb, row.length = fbWidth s.cfg) ∨
        (fb.length = s.fb.length ∧ ∀ w, (∀ row ∈ s.fb, row.length = w) → ∀ row ∈ fb, row.length = w)) :
      Effect i s ({ s with fb := fb }.deliver .none)
  | tick (hi : i = .tick) : Effect i s (s.flashTick.deliver .none)
  | ackredraw (hi : i = .ackredraw) : Effect i s (s.clearRedraw.deliver .none)
  /-- The running checksums, the Adler sums below 65521 or as they were. -/
  | sums (c : BitVec 32) (a b : BitVec 16) (hi : i.writesSums = true)
      (h : (a = s.s1 ∧ b = s.s2) ∨ (a.toNat < adlerMod ∧ b.toNat < adlerMod)) :
      Effect i s ({ s with crc := c, s1 := a, s2 := b }.deliver .none)

theorem nbanks_pos (c : Config) : 0 < c.nbanks := by unfold Config.nbanks; split <;> decide

/-- A wrapped bank is in the table (20_memory.md R68). -/
theorem wrapBank_lt (c : Config) (b : Nat) : wrapBank c b < c.nbanks := Nat.mod_lt _ (nbanks_pos c)

/-- A translated write lands in a bank of the table or of a slot (20_memory.md R66). -/
theorem State.translate_bank (s : State) (a : Addr) (w : Bool) :
    (s.translate a w).bank < s.cfg.nbanks ∨ ∃ j, (s.translate a w).bank = s.slotBank j := by
  unfold State.translate
  split
  · exact .inl (wrapBank_lt _ _)
  · exact .inr ⟨_, rfl⟩

/-- A bulk write is the byte writes it consists of. -/
theorem State.writeBytes_ram (s : State) (a : Addr) (bs : List Byte) : ∃ ws, s.writeBytes a bs = s.setRamBytes ws ∧
    ∀ w ∈ ws, w.1.bank < s.cfg.nbanks ∨ ∃ j, w.1.bank = s.slotBank j := by
  induction bs generalizing s a with
  | nil => exact ⟨[], rfl, by simp⟩
  | cons b bs ih =>
    obtain ⟨ws, h1, h2⟩ := ih (s.writeByte a b) (a + 1)
    refine ⟨(s.translate a true, b) :: ws, h1, fun w hw => ?_⟩
    rcases List.mem_cons.1 hw with rfl | hw
    · exact s.translate_bank a true
    · exact h2 w hw

theorem State.writeBankBytes_ram (s : State) (b o : Nat) (bs : List Byte) : ∃ ws,
    s.writeBankBytes b o bs = s.setRamBytes ws ∧ ∀ w ∈ ws, w.1.bank = b := by
  induction bs generalizing s o with
  | nil => exact ⟨[], rfl, by simp⟩
  | cons v bs ih =>
    obtain ⟨ws, h1, h2⟩ := ih (s.setRamByte ⟨b, BitVec.ofNat 14 o⟩ v) (o + 1)
    refine ⟨(⟨b, BitVec.ofNat 14 o⟩, v) :: ws, h1, fun w hw => ?_⟩
    rcases List.mem_cons.1 hw with rfl | hw
    · rfl
    · exact h2 w hw

/-- Byte writes change `ram` alone. -/
theorem State.setRamBytes_eq (s : State) (ws : List (Loc × Byte)) :
    s.setRamBytes ws = { s with ram := (s.setRamBytes ws).ram } := by
  induction ws generalizing s with
  | nil => rfl
  | cons w ws ih => exact (ih (s.setRamByte w.1 w.2)).trans rfl

/-- A port write gives one of the port effects, whatever row is named. -/
theorem Effect.of_port {i : Instr} {s : State} {p : Addr} {v : Byte} {row : PortRow} (hi : i.writesPorts = true)
    (he : encode i = encodePortWrite p v) (h : selectRow s.decodeCtx p = row) : Effect i s ((s.rowEffect v row).deliver .none) := by
  rw [← State.portOut_of h]; exact .port p v hi he

/-- The sums after a byte are below 65521 (10_state.md R39). -/
theorem adlerStep_lt (a : AdlerSums) (b : Byte) :
    (adlerStep a b).s1.toNat < adlerMod ∧ (adlerStep a b).s2.toNat < adlerMod := by
  simp only [adlerStep, adlerMod, BitVec.toNat_ofNat]
  omega

/-- Every next state an operation answers is one of the effects. -/
theorem exec_effect {i : Instr} {s t : State} (h : exec i s = .next t) : Effect i s t := by
  have of_eq : ∀ {u : State}, Effect i s u → Host.Outcome.next u = (.next t : Answer) → Effect i s t :=
    fun hu e => by injection e with e; exact e ▸ hu
  cases i with
  | xlat | rdb | rdbk | rdw | inp | crcFinal | crc32 | adlerFinal | adler32 | nimRead =>
    exact of_eq (.deliver _) h
  | outRsvd => exact of_eq (.deliver _) h
  | wrb a v =>
    exact of_eq (.ram [(s.translate a true, v)] .none rfl fun w hw => by
      rw [List.mem_singleton.1 hw]; exact s.translate_bank a true) h
  | wrbk b o v =>
    exact of_eq (.ram [(s.directLoc b o, v)] .none rfl fun w hw => by
      rw [List.mem_singleton.1 hw]; exact .inl (wrapBank_lt _ _)) h
  | wrw a v =>
    refine of_eq (.ram [(s.translate a true, v.extractLsb' 0 8), (s.translate (a + 1) true, v.extractLsb' 8 8)]
      .none rfl fun w hw => ?_) h
    rcases List.mem_cons.1 hw with rfl | hw
    · exact s.translate_bank a true
    · rw [List.mem_singleton.1 hw]; exact s.translate_bank (a + 1) true
  | bulkwr a bs =>
    simp only [exec, execBulkwr] at h
    split at h
    · exact of_eq (.deliver _) h
    · rename_i hl
      obtain ⟨ws, h1, h2⟩ := s.writeBytes_ram a bs
      rw [h1] at h
      exact of_eq (.bulk a bs ws rfl (Nat.le_of_not_lt hl) h2) h
  | bulkwrbk b o bs =>
    simp only [exec, execBulkwrbk] at h
    split at h
    · exact of_eq (.deliver _) h
    · obtain ⟨ws, h1, h2⟩ := s.writeBankBytes_ram (wrapBank s.cfg b) o bs
      rw [h1] at h
      exact of_eq (.ram ws _ rfl fun w hw => .inl (by rw [h2 w hw]; exact wrapBank_lt _ _)) h
  | out p v => exact of_eq (.port p v rfl rfl) h
  | outBorder hi v => exact of_eq (.of_port rfl rfl (selectRow_border _ hi)) h
  | outL2ctrl v => exact of_eq (.of_port rfl rfl (selectRow_l2ctrl _)) h
  | outRegsel v => exact of_eq (.of_port rfl rfl (selectRow_regsel _)) h
  | outPagelo v =>
    simp only [exec, execOutPagelo] at h
    split at h
    · exact of_eq (.of_port (row := .pagelo) rfl rfl ((selectRow_pagelo _).trans (if_pos ‹_›))) h
    · exact of_eq (.port _ v rfl rfl) h
  | outPagehi v =>
    simp only [exec, execOutPagehi] at h
    split at h
    · exact of_eq (.of_port (row := .pagehi) rfl rfl ((selectRow_pagehi _).trans (if_pos ‹_›))) h
    · exact of_eq (.port _ v rfl rfl) h
  | outRegdata12 v =>
    simp only [exec, execOutRegdata12] at h
    split at h
    · rename_i hc
      exact of_eq (.of_port (row := .regdata12) rfl rfl
        (by rw [selectRow_regdata, if_pos (by simpa [PortRow.condition] using hc)])) h
    · exact of_eq (.port _ v rfl rfl) h
  | outRegdata13 v =>
    simp only [exec, execOutRegdata13] at h
    split at h
    · rename_i hc
      simp only [PortRow.condition, beq_iff_eq] at hc
      exact of_eq (.of_port (row := .regdata13) rfl rfl (by rw [selectRow_regdata, hc]; rfl)) h
    · exact of_eq (.port _ v rfl rfl) h
  | outRegdata14 v =>
    simp only [exec, execOutRegdata14] at h
    split at h
    · rename_i hc
      simp only [PortRow.condition, Bool.and_eq_true, beq_iff_eq] at hc
      exact of_eq (.of_port (row := .regdata14) rfl rfl (by rw [selectRow_regdata, hc.1, hc.2]; rfl)) h
    · exact of_eq (.port _ v rfl rfl) h
  | outRegdataNone v =>
    simp only [exec, execOutRegdataNone] at h
    split at h
    · exact of_eq (.deliver _) h
    · exact of_eq (.port _ v rfl rfl) h
  | outNone p v =>
    simp only [exec, execOutNone] at h
    split at h
    · exact of_eq (.deliver _) h
    · exact of_eq (.port p v rfl rfl) h
  | writereg r v =>
    simp only [exec, execWritereg, State.portOut_regsel] at h
    exact of_eq (.writereg r v rfl) h
  | readreg r =>
    simp only [exec, execReadreg, State.portOut_regsel] at h
    exact of_eq (.readreg r rfl) h
  | renderbase => exact of_eq (.frame _ rfl (.inl s.renderBase_shape)) h
  | renderlayer2 =>
    simp only [exec, execRenderlayer2] at h
    rw [State.renderLayer2_eq] at h
    exact of_eq (.frame _ rfl (.inr s.renderLayer2_shape)) h
  | compose =>
    simp only [exec, execCompose] at h
    split at h
    · rw [State.renderLayer2_eq] at h
      obtain ⟨h1, h2⟩ := s.renderBase_shape
      obtain ⟨h3, h4⟩ := s.renderBase.renderLayer2_shape
      exact of_eq (.frame _ rfl (.inl ⟨h3.trans h1, h4 _ h2⟩)) h
    · exact of_eq (.frame _ rfl (.inl s.renderBase_shape)) h
  | tick => exact of_eq (.tick rfl) h
  | ackredraw => exact of_eq (.ackredraw rfl) h
  | crcInit => exact of_eq (.sums _ s.s1 s.s2 rfl (.inl ⟨rfl, rfl⟩)) h
  | crcByte b => exact of_eq (.sums _ s.s1 s.s2 rfl (.inl ⟨rfl, rfl⟩)) h
  | adlerInit => exact of_eq (.sums s.crc 1 0 rfl (.inr (by decide))) h
  | adlerByte b => exact of_eq (.sums s.crc _ _ rfl (.inr (adlerStep_lt s.adler b))) h
  | storedStream raw => exact of_eq (.encoded _) h
  | zlibWrap raw => exact of_eq (.encoded _) h
  | storedBlock =>
    simp only [exec, execStoredBlock] at h
    split at h
    · exact of_eq (.deliver _) h
    · cases h
  | pngChunk =>
    simp only [exec, execPngChunk] at h
    split at h
    · exact of_eq (.deliver _) h
    · cases h
  | pngEncode =>
    simp only [exec, execPngEncode] at h
    split at h
    · exact of_eq (.encoded _) h
    · cases h
  | nimWrite =>
    simp only [exec, execNimWrite] at h
    split at h
    · exact of_eq (.encoded _) h
    · cases h

end Sys2Proof.Machine
end

