-- ==== Sys2Proof/Laws/PerInstr.lean ====
section
/-! SUPPORT. One lemma per operation about its record. -/

namespace Sys2Proof.Laws.RecordAccepted

/-- In every decode context the operation's record is accepted, and what it decodes to has that same record: which row
a port write selects depends on the context, whether it is accepted does not (30_encoding.md R93, R99). -/
def Statement (i : Instr) : Prop := ∀ ctx : DecodeCtx, ∃ j : Instr, decode ctx (encode i) = .ok j ∧ encode j = encode i

/-- The record of a port write, for every row. -/
theorem of_portWrite {i : Instr} {p : Addr} {v : Byte} (h : encode i = encodePortWrite p v) : Statement i := fun ctx =>
  ⟨decodePortWrite ctx p v, by rw [h, decode_encodePortWrite], by rw [h, encode_decodePortWrite]⟩

/-- The record of an operation that no context selects among. -/
theorem of_operands {i : Instr} (h : ∀ ctx, decodeOperands ctx (encode i).kind (encode i).operands = some i) :
    Statement i := fun ctx => ⟨i, decode_eq_ok.2 (h ctx), rfl⟩

theorem xlat (addr : Addr) (w : Bool) : Statement (.xlat addr w) :=
  of_operands fun ctx => by simp [encode, decodeOperands, read2, read1]
theorem rdb (addr : Addr) : Statement (.rdb addr) :=
  of_operands fun ctx => by simp [encode, decodeOperands, read1]
theorem wrb (addr : Addr) (data : Byte) : Statement (.wrb addr data) :=
  of_operands fun ctx => by simp [encode, decodeOperands, read2, read1]
theorem rdbk (bank offset : Nat) : Statement (.rdbk bank offset) :=
  of_operands fun ctx => by simp [encode, decodeOperands, read2, read1]
theorem wrbk (bank offset : Nat) (data : Byte) : Statement (.wrbk bank offset data) :=
  of_operands fun ctx => by simp [encode, decodeOperands, read3, read2, read1]
theorem rdw (addr : Addr) : Statement (.rdw addr) :=
  of_operands fun ctx => by simp [encode, decodeOperands, read1]
theorem wrw (addr : Addr) (data : BitVec 16) : Statement (.wrw addr data) :=
  of_operands fun ctx => by simp [encode, decodeOperands, read2, read1]
theorem bulkwr (addr : Addr) (bytes : List Byte) : Statement (.bulkwr addr bytes) :=
  of_operands fun ctx => by simp [encode, decodeOperands, read2, read1]
theorem bulkwrbk (bank offset : Nat) (bytes : List Byte) : Statement (.bulkwrbk bank offset bytes) :=
  of_operands fun ctx => by simp [encode, decodeOperands, read3, read2, read1]
theorem out (port : Addr) (data : Byte) : Statement (.out port data) := of_portWrite rfl
theorem outBorder (portHigh : Byte) (data : Byte) : Statement (.outBorder portHigh data) := of_portWrite rfl
theorem outPagelo (data : Byte) : Statement (.outPagelo data) := of_portWrite rfl
theorem outPagehi (data : Byte) : Statement (.outPagehi data) := of_portWrite rfl
theorem outL2ctrl (data : Byte) : Statement (.outL2ctrl data) := of_portWrite rfl
theorem outRegsel (data : Byte) : Statement (.outRegsel data) := of_portWrite rfl
theorem outRegdata12 (data : Byte) : Statement (.outRegdata12 data) := of_portWrite rfl
theorem outRegdata13 (data : Byte) : Statement (.outRegdata13 data) := of_portWrite rfl
theorem outRegdata14 (data : Byte) : Statement (.outRegdata14 data) := of_portWrite rfl
theorem outRegdataNone (data : Byte) : Statement (.outRegdataNone data) := of_portWrite rfl
theorem outRsvd (data : Byte) : Statement (.outRsvd data) := of_portWrite rfl
theorem outNone (port : Addr) (data : Byte) : Statement (.outNone port data) := of_portWrite rfl
theorem inp (port : Addr) : Statement (.inp port) :=
  of_operands fun ctx => by simp [encode, decodeOperands, read1]
theorem writereg (reg data : Byte) : Statement (.writereg reg data) :=
  of_operands fun ctx => by simp [encode, decodeOperands, read2, read1]
theorem readreg (reg : Byte) : Statement (.readreg reg) :=
  of_operands fun ctx => by simp [encode, decodeOperands, read1]
theorem renderbase : Statement .renderbase :=
  of_operands fun _ => rfl
theorem renderlayer2 : Statement .renderlayer2 :=
  of_operands fun _ => rfl
theorem compose : Statement .compose :=
  of_operands fun _ => rfl
theorem tick : Statement .tick :=
  of_operands fun _ => rfl
theorem ackredraw : Statement .ackredraw :=
  of_operands fun _ => rfl
theorem crcInit : Statement .crcInit :=
  of_operands fun _ => rfl
theorem crcByte (b : Byte) : Statement (.crcByte b) :=
  of_operands fun ctx => by simp [encode, decodeOperands, read1]
theorem crcFinal : Statement .crcFinal :=
  of_operands fun _ => rfl
theorem crc32 (bytes : List Byte) : Statement (.crc32 bytes) :=
  of_operands fun ctx => by simp [encode, decodeOperands, read1]
theorem adlerInit : Statement .adlerInit :=
  of_operands fun _ => rfl
theorem adlerByte (b : Byte) : Statement (.adlerByte b) :=
  of_operands fun ctx => by simp [encode, decodeOperands, read1]
theorem adlerFinal : Statement .adlerFinal :=
  of_operands fun _ => rfl
theorem adler32 (bytes : List Byte) : Statement (.adler32 bytes) :=
  of_operands fun ctx => by simp [encode, decodeOperands, read1]
theorem storedBlock (final : Bool) (data : List Byte) : Statement (.storedBlock final data) :=
  of_operands fun ctx => by simp [encode, decodeOperands, read2, read1]
theorem storedStream (raw : List Byte) : Statement (.storedStream raw) :=
  of_operands fun ctx => by simp [encode, decodeOperands, read1]
theorem zlibWrap (raw : List Byte) : Statement (.zlibWrap raw) :=
  of_operands fun ctx => by simp [encode, decodeOperands, read1]
theorem pngChunk (type : ChunkType) (data : List Byte) : Statement (.pngChunk type data) :=
  of_operands fun ctx => by simp [encode, decodeOperands, read2, read1]
theorem pngEncode (w h : Nat) (idx pal : List Byte) (t : Byte) : Statement (.pngEncode w h idx pal t) :=
  of_operands fun ctx => by simp [encode, decodeOperands, read5, read3, read2, read1]
theorem nimWrite (w h : BitVec 16) (img : List Byte) : Statement (.nimWrite w h img) :=
  of_operands fun ctx => by simp [encode, decodeOperands, read3, read2, read1]
theorem nimRead (bytes : List Byte) : Statement (.nimRead bytes) :=
  of_operands fun ctx => by simp [encode, decodeOperands, read1]

end Sys2Proof.Laws.RecordAccepted
end

