-- ==== Sys2Proof/Tests/Slice0.lean ====
section
/-! SUPPORT. Small tests: words and records written out from the spec's encodings, ill-formed operands, one or two
vectors of spec/95_test_vectors.md per operation, and for each obligation with hypotheses a witness that meets them. -/

namespace Sys2Proof.Tests

open Sys2Proof.Machine

/-- The state after reset with 64 banks (the model's reset) and with 32 banks. -/
def s64 : State := State.reset
def s32 : State := State.resetWith { defaultConfig with banks := .banks32 } defaultResetParams

/-- A state whose encoder operations never fail. -/
def sAlloc : State := State.resetWith { defaultConfig with allocCanFail := false } defaultResetParams

/-- A pixel with red `k`: the colour tables of the tests name their index. -/
def tint (k : Nat) : Rgb := ⟨BitVec.ofNat 8 k, 0, 0⟩

/-- A scene with the colours of `tint` (vector V-VID-7 before its COMPOSE): border 2, one bitmap byte and one attribute in
each of two cells. -/
def scene : State := { State.resetWith { defaultConfig with
    borderColour := Vector.ofFn fun i => tint (100 + i.val)
    baseColour := Vector.ofFn fun i => tint i.val } defaultResetParams with
  border := 2
  ram := [(81920, 0x80), (82177, 0x40), (88064, 0x47), (88065, 0xB1)] }

/-- The next state, where there is one. -/
def after (i : Instr) (s : State) : Option State :=
  match exec i s with
  | .next t => some t
  | .fault _ => none
  | .refused _ => none

/-- One item of the next state. -/
def got {α : Type} (i : Instr) (s : State) (f : State → α) : Option α := (after i s).map f

/-! ### Well-formedness: each check refuses a term -/

/-- The check of STORED_BLOCK on data of a given length, so that no long list is evaluated. -/
theorem storedBlock_check {data : List Byte} {n : Nat} (h : data.length = n) :
    (Instr.storedBlock true data).wellFormed = decide (n ≤ 65535) := by
  subst h; rfl

theorem pngChunk_check {data : List Byte} {n : Nat} (h : data.length = n) :
    (Instr.pngChunk typeIend data).wellFormed = decide (n < 2 ^ 31) := by
  subst h; rfl

theorem test_wellFormed_storedBlock :
    (Instr.storedBlock true (List.replicate 65536 0)).wellFormed = false ∧
    (Instr.storedBlock true (List.replicate 65535 0)).wellFormed = true :=
  ⟨(storedBlock_check List.length_replicate).trans (by decide), (storedBlock_check List.length_replicate).trans (by decide)⟩

theorem test_wellFormed_pngChunk : (Instr.pngChunk typeIend (List.replicate (2 ^ 31) 0)).wellFormed = false :=
  (pngChunk_check List.length_replicate).trans (by decide)

/-- V-PNG-6, and a palette of the wrong length. -/
theorem test_wellFormed_pngEncode :
    (Instr.pngEncode 0 5 [] (List.replicate 256 0) 0).wellFormed = false ∧
    (Instr.pngEncode 2 2 [0, 1, 2] (List.replicate 256 0) 0).wellFormed = false ∧
    (Instr.pngEncode 1 1 [0] (List.replicate 255 0) 0).wellFormed = false ∧
    (Instr.pngEncode 1 1 [0] (List.replicate 256 0) 0).wellFormed = true := by decide +kernel

theorem test_wellFormed_nimWrite :
    (Instr.nimWrite 2 2 [0, 1, 2]).wellFormed = false ∧ (Instr.nimWrite 0 7 []).wellFormed = true := by decide

/-- Every unconditional row of the port map is no OUT.NONE; a paging port may be one. -/
theorem test_wellFormed_outNone :
    (Instr.outNone 0x12FE 0).wellFormed = false ∧ (Instr.outNone 0x123B 0).wellFormed = false ∧
    (Instr.outNone 0x243B 0).wellFormed = false ∧ (Instr.outNone 0x253B 0).wellFormed = false ∧
    (Instr.outNone 0x303B 0).wellFormed = false ∧ (Instr.outNone 0x7FFD 0).wellFormed = true := by decide

/-! ### Decoding: port words bit by bit (30_encoding.md R94), then a record of each kind -/

theorem test_decode_words :
    decodeTableWord 16 0b1010010111111110 = some (.outBorder 0b10100101 0) ∧
    decodeTableWord 16 0b0111111111111101 = some (.outPagelo 0) ∧
    decodeTableWord 16 0b1101111111111101 = some (.outPagehi 0) ∧
    decodeTableWord 16 0b0001001000111011 = some (.outL2ctrl 0) ∧
    decodeTableWord 16 0b0010010000111011 = some (.outRegsel 0) ∧
    decodeTableWord 16 0b0010010100111011 = some (.outRegdataNone 0) ∧
    decodeTableWord 16 0b0011000000111011 = some (.outRsvd 0) ∧
    decodeTableWord 16 0b0001001000110100 = some (.outNone 0x1234 0) := by decide

/-- With the data byte above the port number, and a word that does not fit. -/
theorem test_decode_data :
    decodeTableWord 24 0b000010110001001000111011 = some (.outL2ctrl 0x0B) ∧
    decodeTableWord 16 0b000010110001001000111011 = none := by decide

/-- The data port by the latched register, the paging ports without the 1MB map (30_encoding.md R95). -/
theorem test_decode_context :
    decode ⟨true, true, 0x12⟩ ⟨.out, [.num 0x253B, .num 9]⟩ = .ok (.outRegdata12 9) ∧
    decode ⟨true, true, 0x13⟩ ⟨.out, [.num 0x253B, .num 9]⟩ = .ok (.outRegdata13 9) ∧
    decode ⟨true, true, 0x14⟩ ⟨.out, [.num 0x253B, .num 9]⟩ = .ok (.outRegdata14 9) ∧
    decode ⟨true, false, 0x14⟩ ⟨.out, [.num 0x253B, .num 9]⟩ = .ok (.outRegdataNone 9) ∧
    decode ⟨false, true, 0⟩ ⟨.out, [.num 0xDFFD, .num 1]⟩ = .ok (.outNone 0xDFFD 1) := by decide

theorem test_decode_memory :
    decode resetCtx ⟨.xlat, [.num 0x4000, .num 1]⟩ = .ok (.xlat 0x4000 true) ∧
    decode resetCtx ⟨.rdb, [.num 0x4000]⟩ = .ok (.rdb 0x4000) ∧
    decode resetCtx ⟨.wrb, [.num 0x4000, .num 0x55]⟩ = .ok (.wrb 0x4000 0x55) ∧
    decode resetCtx ⟨.rdbk, [.num 37, .num 0x10]⟩ = .ok (.rdbk 37 0x10) ∧
    decode resetCtx ⟨.wrbk, [.num 37, .num 0x10, .num 0x42]⟩ = .ok (.wrbk 37 0x10 0x42) ∧
    decode resetCtx ⟨.rdw, [.num 0x7FFF]⟩ = .ok (.rdw 0x7FFF) ∧
    decode resetCtx ⟨.wrw, [.num 0x7FFF, .num 0xBEEF]⟩ = .ok (.wrw 0x7FFF 0xBEEF) ∧
    decode resetCtx ⟨.bulkwr, [.num 0x3FFE, .bytes [1, 2]]⟩ = .ok (.bulkwr 0x3FFE [1, 2]) ∧
    decode resetCtx ⟨.bulkwrbk, [.num 8, .num 16384, .bytes []]⟩ = .ok (.bulkwrbk 8 16384 []) := by decide

theorem test_decode_ports_video :
    decode resetCtx ⟨.inp, [.num 0x253B]⟩ = .ok (.inp 0x253B) ∧
    decode resetCtx ⟨.writereg, [.num 0x12, .num 9]⟩ = .ok (.writereg 0x12 9) ∧
    decode resetCtx ⟨.readreg, [.num 0x13]⟩ = .ok (.readreg 0x13) ∧
    decode resetCtx ⟨.renderbase, []⟩ = .ok .renderbase ∧
    decode resetCtx ⟨.renderlayer2, []⟩ = .ok .renderlayer2 ∧
    decode resetCtx ⟨.compose, []⟩ = .ok .compose ∧
    decode resetCtx ⟨.tick, []⟩ = .ok .tick ∧
    decode resetCtx ⟨.ackredraw, []⟩ = .ok .ackredraw := by decide

theorem test_decode_codecs :
    decode resetCtx ⟨.crcInit, []⟩ = .ok .crcInit ∧
    decode resetCtx ⟨.crcByte, [.num 0x61]⟩ = .ok (.crcByte 0x61) ∧
    decode resetCtx ⟨.crcFinal, []⟩ = .ok .crcFinal ∧
    decode resetCtx ⟨.crc32, [.bytes [0x61]]⟩ = .ok (.crc32 [0x61]) ∧
    decode resetCtx ⟨.adlerInit, []⟩ = .ok .adlerInit ∧
    decode resetCtx ⟨.adlerByte, [.num 0x61]⟩ = .ok (.adlerByte 0x61) ∧
    decode resetCtx ⟨.adlerFinal, []⟩ = .ok .adlerFinal ∧
    decode resetCtx ⟨.adler32, [.bytes [0x61]]⟩ = .ok (.adler32 [0x61]) ∧
    decode resetCtx ⟨.storedBlock, [.num 0, .bytes [0x61]]⟩ = .ok (.storedBlock false [0x61]) ∧
    decode resetCtx ⟨.storedStream, [.bytes [0x61]]⟩ = .ok (.storedStream [0x61]) ∧
    decode resetCtx ⟨.zlibWrap, [.bytes [0x61]]⟩ = .ok (.zlibWrap [0x61]) ∧
    decode resetCtx ⟨.pngChunk, [.bytes [0x49, 0x45, 0x4E, 0x44], .bytes []]⟩ = .ok (.pngChunk typeIend []) ∧
    decode resetCtx ⟨.pngEncode, [.num 1, .num 1, .bytes [0xE0], .bytes [7], .num 0xE3]⟩ =
      .ok (.pngEncode 1 1 [0xE0] [7] 0xE3) ∧
    decode resetCtx ⟨.nimWrite, [.num 3, .num 2, .bytes [9]]⟩ = .ok (.nimWrite 3 2 [9]) ∧
    decode resetCtx ⟨.nimRead, [.bytes [0, 0]]⟩ = .ok (.nimRead [0, 0]) := by decide

/-- A number too wide, a missing operand, one too many, the wrong sort, a chunk type of three bytes: rejected by name. -/
theorem test_decode_rejects :
    decode resetCtx ⟨.rdb, [.num 65536]⟩ = .error (.operandsDoNotFit .rdb) ∧
    decode resetCtx ⟨.wrb, [.num 0]⟩ = .error (.operandsDoNotFit .wrb) ∧
    decode resetCtx ⟨.tick, [.num 0]⟩ = .error (.operandsDoNotFit .tick) ∧
    decode resetCtx ⟨.crc32, [.num 0]⟩ = .error (.operandsDoNotFit .crc32) ∧
    decode resetCtx ⟨.xlat, [.num 0, .num 2]⟩ = .error (.operandsDoNotFit .xlat) ∧
    decode resetCtx ⟨.pngChunk, [.bytes [1, 2, 3], .bytes []]⟩ = .error (.operandsDoNotFit .pngChunk) := by decide

/-- `decodeTableWord` decodes in the context of the state after reset. -/
theorem test_resetCtx : resetCtx = State.reset.decodeCtx := rfl

/-- A placed word is what the next step runs, with its data byte. -/
theorem test_withFetchWord :
    step (s64.withFetchWord 16 0x303B) = exec (.outRsvd 0) s64 ∧
    step (s64.withFetchWord 24 0x0300FE) = exec (.outBorder 0 3) s64 := ⟨rfl, rfl⟩

/-! ### Memory (95_test_vectors.md section 2) -/

/-- V-MEM-1 -/
theorem test_xlat : got (.xlat 0x8123 false) s32 (·.result) = some (.location ⟨2, 0x0123⟩) ∧
    got (.xlat 0xFFFF false) s32 (·.result) = some (.location ⟨0, 0x3FFF⟩) := by decide

/-- V-MEM-17: the redirect bank wraps with 32 banks and not with 64; V-MEM-16: the next slot is not redirected. -/
theorem test_xlat_redirect :
    got (.xlat 0x4000 true) { s32 with bankStart := 31, subBank := 3, write0Enable := true } (·.result) =
      some (.location ⟨2, 0⟩) ∧
    got (.xlat 0x4000 true) { s64 with bankStart := 31, subBank := 3, write0Enable := true } (·.result) =
      some (.location ⟨34, 0⟩) ∧
    got (.xlat 0x8000 true) { s64 with bankStart := 31, write0Enable := true } (·.result) =
      some (.location ⟨2, 0⟩) := by decide

/-- V-MEM-3: RAM[5][0] is key 5 * 16384. -/
theorem test_rdb : got (.rdb 0x4000) { s32 with ram := [(81920, 0x7E)] } (·.result) = some (.byte 0x7E) := by decide

/-- V-MEM-4, and that writing 0 removes the byte. -/
theorem test_wrb : got (.wrb 0xC005 0x99) s32 (·.ram) = some [(5, 0x99)] ∧
    got (.wrb 0xC005 0) { s32 with ram := [(5, 0x99)] } (·.ram) = some [] := by decide

/-- V-MEM-5, V-MEM-6 -/
theorem test_rdbk : got (.rdbk 37 0x4010) { s32 with ram := [(81936, 0x42)] } (·.result) = some (.byte 0x42) ∧
    got (.rdbk 5 0x10) { s64 with ram := [(606224, 0x42)] } (·.result) = some (.byte 0) := by decide

/-- V-MEM-6: bank 37 is bank 5 of 32, and its own of 64. -/
theorem test_wrbk : got (.wrbk 37 0x10 0x42) s32 (·.ram) = some [(81936, 0x42)] ∧
    got (.wrbk 37 0x10 0x42) s64 (·.ram) = some [(606224, 0x42)] := by decide

/-- V-MEM-8: the address wraps. -/
theorem test_rdw : got (.rdw 0xFFFF) { s32 with ram := [(0, 0x12), (16383, 0x34)] } (·.result) =
    some (.word 0x1234) := by decide

/-- V-MEM-7: the two bytes fall into two slots. -/
theorem test_wrw : got (.wrw 0x7FFF 0xBEEF) s32 (·.ram) = some [(32768, 0xBE), (98303, 0xEF)] := by decide

/-- V-MEM-10, V-MEM-13 -/
theorem test_bulkwr :
    got (.bulkwr 0x3FFE [1, 2, 3, 4]) s32 (fun t => (t.ram, t.redrawRequest, t.result)) =
      some ([(16382, 1), (16383, 2), (81920, 3), (81921, 4)], true, .ok) ∧
    got (.bulkwr 0xFFFF []) s32 (fun t => (t.ram, t.redrawRequest)) = some ([], true) ∧
    got (.bulkwr 0xFFFF [9, 9]) s32 (fun t => (t.ram, t.redrawRequest, t.result)) =
      some ([], false, .failed (.boundsExceeded 0xFFFF 2)) := by decide

/-- V-MEM-14 -/
theorem test_bulkwrbk :
    got (.bulkwrbk 8 0x3FFE [0xAA, 0xBB]) s32 (fun t => (t.ram, t.redrawRequest, t.result)) =
      some ([(147454, 0xAA), (147455, 0xBB)], false, .ok) ∧
    got (.bulkwrbk 8 0x3FFE [0xAA, 0xBB, 0xCC]) s32 (fun t => (t.ram, t.result)) =
      some ([], .failed (.boundsExceeded 0x3FFE 3)) ∧
    got (.bulkwrbk 8 16384 []) s32 (·.result) = some .ok := by decide

/-! ### Ports (95_test_vectors.md section 3) -/

/-- S3, V-PORT-2, V-PORT-3 -/
theorem test_out : got (.out 0x00FE 0x07) s32 (fun t => (t.border, t.redrawRequest)) = some (7, true) ∧
    got (.out 0xFFFE 0x0C) s32 (·.border) = some 4 ∧
    got (.out 0x00FC 0x07) s32 (fun t => (t.border, t.redrawRequest)) = some (0, false) := by decide

/-- V-PORT-1 -/
theorem test_outBorder : got (.outBorder 0 0xFA) s32 (fun t => (t.border, t.redrawRequest)) = some (2, true) := by decide

/-- V-PORT-4, V-PORT-8 -/
theorem test_outPagelo :
    got (.outPagelo 0x13) s64 (fun t => (t.pagingLow, t.slot, t.redrawRequest)) = some (3, #v[0, 5, 2, 0], false) ∧
    got (.outPagelo 3) s32 (·.pagingLow) = some 0 := by decide

/-- V-PORT-5, V-PORT-7, V-PORT-8 -/
theorem test_outPagehi :
    got (.outPagehi 1) { s64 with pagingLow := 3 } (fun t => (t.pagingHigh, t.slot)) = some (1, #v[0, 5, 2, 11]) ∧
    got (.outPagehi 0xFF) { s64 with pagingLow := 7 } (·.slot) = some #v[0, 5, 2, 63] ∧
    got (.outPagehi 1) { s32 with pagingLow := 3 } (·.slot) = some #v[0, 5, 2, 0] := by decide

/-- S4, V-PORT-10 -/
theorem test_outL2ctrl :
    got (.outL2ctrl 0x0B) s32 (fun t => (t.subBank, t.shadowEnable, t.enable, t.write0Enable, t.redrawRequest)) =
      some (0, true, true, true, true) ∧
    got (.outL2ctrl 0x82) s32 (fun t => (t.subBank, t.shadowEnable, t.enable, t.write0Enable)) =
      some (2, false, true, false) ∧
    got (.outL2ctrl 0x34) s32 (fun t => (t.subBank, t.shadowEnable, t.enable, t.write0Enable)) =
      some (0, false, false, false) := by decide

/-- V-PORT-11 -/
theorem test_outRegsel : got (.outRegsel 0x12) s32 (fun t => (t.regSelect, t.redrawRequest)) = some (0x12, false) := by
  decide

/-- V-PORT-11: the selection stays latched. -/
theorem test_outRegdata12 : got (.outRegdata12 0x29) { s32 with regSelect := 0x12 }
    (fun t => (t.bankStart, t.regSelect, t.redrawRequest)) = some (9, 0x12, true) := by decide

/-- V-PORT-12 -/
theorem test_outRegdata13 : got (.outRegdata13 12) { s32 with regSelect := 0x13 }
    (fun t => (t.shadowBankStart, t.bankStart, t.redrawRequest)) = some (12, 0, true) := by decide

/-- V-PORT-13, with the register and without it. -/
theorem test_outRegdata14 :
    got (.outRegdata14 0xE3) { s32 with regSelect := 0x14 } (fun t => (t.transparentIndex, t.redrawRequest)) =
      some (0xE3, false) ∧
    got (.outRegdata14 0xE3) { s32 with regSelect := 0x14, cfg := { defaultConfig with hasL2Transp := false } }
      (·.transparentIndex) = some 0 := by decide

/-- V-PORT-14: no register takes the byte. -/
theorem test_outRegdataNone : got (.outRegdataNone 0xFF) { s32 with regSelect := 0x15 }
    (fun t => (t.regSelect, t.bankStart, t.shadowBankStart, t.transparentIndex)) = some (0x15, 0, 0, 0) := by decide

/-- V-PORT-15 -/
theorem test_outRsvd : got (.outRsvd 0x55) s32 (fun t => (t.regSelect, t.enable, t.redrawRequest)) =
    some (0, false, false) := by decide

/-- V-PORT-15: an address next to that of OUT.L2CTRL. -/
theorem test_outNone : got (.outNone 0x133B 0x0B) s32 (fun t => (t.enable, t.redrawRequest)) = some (false, false) := by
  decide

/-- V-PORT-16 -/
theorem test_inp : got (.inp 0xFFFF) { s32 with border := 7, regSelect := 9 } (·.result) = some (.byte 0) := by decide

/-- V-PORT-17, V-PORT-14 -/
theorem test_writereg : got (.writereg 0x12 9) s32 (fun t => (t.regSelect, t.bankStart)) = some (0x12, 9) ∧
    got (.writereg 0x15 0xFF) s32 (fun t => (t.regSelect, t.bankStart, t.redrawRequest)) = some (0x15, 0, false) := by
  decide

/-- V-PORT-17: the index stays latched. -/
theorem test_readreg : got (.readreg 0x13) s32 (fun t => (t.result, t.regSelect)) = some (.byte 0, 0x13) := by decide

/-! ### Video (95_test_vectors.md section 4) -/

/-- V-VID-1 -/
theorem test_addresses :
    (pixelAddress 1 9, attrAddress 1 9) = (0x0101, 0x1801) ∧
    (pixelAddress 63 255, attrAddress 63 255) = (0x07FF, 0x18FF) ∧
    (pixelAddress 100 100, attrAddress 100 100) = (0x0C8C, 0x198C) ∧
    (pixelAddress 191 255, attrAddress 191 255) = (0x17FF, 0x1AFF) := by decide

/-- V-VID-2, V-VID-3 -/
theorem test_attributes :
    cellIndices false 0x47 = (15, 0) ∧ cellIndices true 0x47 = (15, 0) ∧ cellIndices false 0xB1 = (1, 6) ∧
    cellIndices true 0xB1 = (6, 1) ∧ cellIndices true 0xFF = (7, 15) := by decide

/-- V-VID-4 -/
theorem test_rgb332 : packPixel (rgb332 0x1F) = 0x00FFFF ∧ packPixel (rgb332 0x92) = 0x9292AA ∧
    packPixel (rgb332 0x6D) = 0x6D6D55 ∧ packPixel (rgb332 0xE0) = 0xFF0000 := by decide

/-- V-VID-7: border, ink, paper, and the second cell. The frame rows are 1 below the screen rows, the columns 2. -/
theorem test_renderbase :
    scene.renderBase.fbPixel 193 259 = some (tint 102) ∧ scene.renderBase.fbPixel 1 2 = some (tint 15) ∧
    scene.renderBase.fbPixel 1 3 = some (tint 0) ∧ scene.renderBase.fbPixel 2 11 = some (tint 1) ∧
    scene.renderBase.fbPixel 2 10 = some (tint 6) := by
  simp only [State.renderBase_fbPixel]
  decide

/-- V-VID-8: the flashing cell is swapped. -/
theorem test_renderbase_flash : { scene with flashToggle := true }.renderBase.fbPixel 2 11 = some (tint 6) ∧
    { scene with flashToggle := true }.renderBase.fbPixel 1 2 = some (tint 15) := by
  simp only [State.renderBase_fbPixel]
  decide

/-- V-VID-9: canvas (3, 66) is bank 10 offset 0x0203; index 0 is transparent; the border stays. -/
theorem test_overlay :
    { scene with bankStart := 9, enable := true, ram := [(164355, 0xE0)] }.overlayPixel 67 5 (tint 1) = ⟨255, 0, 0⟩ ∧
    { scene with bankStart := 9, enable := true, ram := [(164355, 0xE0)] }.overlayPixel 67 6 (tint 1) = tint 1 ∧
    { scene with bankStart := 9, enable := true, transparentIndex := 7 }.overlayPixel 0 5 (tint 1) = tint 1 := by decide +kernel

/-- V-VID-11: RENDERLAYER2 with Layer2 disabled. -/
theorem test_renderlayer2 : after .renderlayer2 scene = some { scene with result := .none } := rfl

/-- V-VID-11: COMPOSE with Layer2 disabled is RENDERBASE. -/
theorem test_compose : after .compose scene = after .renderbase scene := rfl

/-- V-VID-12 -/
theorem test_tick :
    got .tick { s32 with tickCounter := 15 } (fun t => (t.tickCounter, t.flashToggle, t.redrawRequest)) =
      some (0, true, true) ∧
    got .tick { s32 with tickCounter := 14 } (fun t => (t.tickCounter, t.flashToggle, t.redrawRequest)) =
      some (15, false, false) := by decide

/-- V-VID-12 -/
theorem test_ackredraw : got .ackredraw { s32 with redrawRequest := true } (·.redrawRequest) = some false := by decide

/-! ### Checksums (95_test_vectors.md section 5) -/

/-- V-CRC-9 -/
theorem test_crcTable : crcTable 1 = 0x77073096 ∧ crcTable 0xCE = 0x7CDCEFB7 ∧ crcTable 255 = 0x2D02EF8D := by decide

theorem test_crcInit : got .crcInit s32 (·.crc) = some 0xFFFFFFFF := by decide

/-- V-CRC-2: the first two values of the register. -/
theorem test_crcByte : got (.crcByte 0x31) { s32 with crc := 0xFFFFFFFF } (·.crc) = some 0x7C231048 ∧
    got (.crcByte 0x32) { s32 with crc := 0x7C231048 } (·.crc) = some 0xB0ACBB32 := by decide

/-- V-CRC-2: the last value. -/
theorem test_crcFinal : got .crcFinal { s32 with crc := 0x340BC6D9 } (·.result) = some (.sum 0xCBF43926) := by decide

/-- V-CRC-1, V-CRC-3, V-CRC-5 -/
theorem test_crc32 : got (.crc32 []) s32 (·.result) = some (.sum 0) ∧
    got (.crc32 [0x61]) s32 (·.result) = some (.sum 0xE8B7BE43) ∧
    got (.crc32 [0xFF]) s32 (·.result) = some (.sum 0xFF000000) := by decide

theorem test_adlerInit : got .adlerInit s32 (fun t => (t.s1, t.s2)) = some (1, 0) := by decide

/-- V-ADL-3, and a sum that wraps at 65521. -/
theorem test_adlerByte : got (.adlerByte 0x63) { s32 with s1 := 196, s2 := 294 } (fun t => (t.s1, t.s2)) = some (295, 589) ∧
    got (.adlerByte 2) { s32 with s1 := 65520, s2 := 65520 } (fun t => (t.s1, t.s2)) = some (1, 0) := by decide

/-- V-ADL-3 -/
theorem test_adlerFinal : got .adlerFinal { s32 with s1 := 295, s2 := 589 } (·.result) = some (.sum 0x024D0127) := by
  decide

/-- V-ADL-1, V-ADL-4 -/
theorem test_adler32 : got (.adler32 []) s32 (·.result) = some (.sum 1) ∧
    got (.adler32 [0x57, 0x69, 0x6B, 0x69, 0x70, 0x65, 0x64, 0x69, 0x61]) s32 (·.result) = some (.sum 0x11E60398) := by
  decide

/-! ### Stored blocks and containers (95_test_vectors.md sections 6, 7) -/

/-- V-DFL-2 -/
theorem test_storedBlock : got (.storedBlock false [0x61, 0x62, 0x63]) s32 (·.result) =
    some (.bytes [0x00, 0x03, 0x00, 0xFC, 0xFF, 0x61, 0x62, 0x63]) := by decide

/-- V-DFL-1, V-DFL-2 -/
theorem test_storedStream : got (.storedStream []) sAlloc (·.result) = some (.bytes [0x01, 0x00, 0x00, 0xFF, 0xFF]) ∧
    got (.storedStream [0x61, 0x62, 0x63]) sAlloc (·.result) =
      some (.bytes [0x01, 0x03, 0x00, 0xFC, 0xFF, 0x61, 0x62, 0x63]) := by decide

/-- V-DFL-3 -/
theorem test_zlibWrap : got (.zlibWrap [0x61, 0x62, 0x63]) sAlloc (·.result) =
    some (.bytes [0x78, 0x01, 0x01, 0x03, 0x00, 0xFC, 0xFF, 0x61, 0x62, 0x63, 0x02, 0x4D, 0x01, 0x27]) := by decide

/-- V-PNG-5 -/
theorem test_pngChunk : got (.pngChunk typeIend []) s32 (·.result) =
    some (.bytes [0, 0, 0, 0, 0x49, 0x45, 0x4E, 0x44, 0xAE, 0x42, 0x60, 0x82]) := by decide +kernel

/-- V-PNG-1, the raw scanlines; V-PNG-3: a transparent pixel keeps its colour. -/
theorem test_pngRaw :
    pngRaw 2 2 [0, 1, 2, 3] [0, 1, 2, 3] 0 =
      [0, 0, 0, 0, 0, 0, 0, 0x55, 0xFF, 0, 0, 0, 0xAA, 0xFF, 0, 0, 0xFF, 0xFF] ∧
    pngRaw 1 1 [1] [0, 0xE0] 1 = [0, 0xFF, 0, 0, 0] := by decide

/-- V-PNG-2 -/
theorem test_pngEncode : pngEncode 1 1 [0xE0] (List.replicate 224 0 ++ [0xE0] ++ List.replicate 31 0) 0xE3 =
    [0x89, 0x50, 0x4E, 0x47, 0x0D, 0x0A, 0x1A, 0x0A] ++
    [0x00, 0x00, 0x00, 0x0D, 0x49, 0x48, 0x44, 0x52, 0x00, 0x00, 0x00, 0x01, 0x00, 0x00, 0x00, 0x01,
      0x08, 0x06, 0x00, 0x00, 0x00, 0x1F, 0x15, 0xC4, 0x89] ++
    [0x00, 0x00, 0x00, 0x10, 0x49, 0x44, 0x41, 0x54, 0x78, 0x01, 0x01, 0x05, 0x00, 0xFA, 0xFF, 0x00,
      0xFF, 0x00, 0x00, 0xFF, 0x05, 0x00, 0x01, 0xFF, 0xFA, 0x5C, 0x88, 0xD1] ++
    [0x00, 0x00, 0x00, 0x00, 0x49, 0x45, 0x4E, 0x44, 0xAE, 0x42, 0x60, 0x82] := by decide +kernel

/-- V-NIM-1, V-NIM-3 -/
theorem test_nimWrite :
    got (.nimWrite 3 2 [9, 8, 7, 6, 5, 4]) sAlloc (·.result) = some (.bytes [0, 0, 3, 0, 2, 0, 9, 8, 7, 6, 5, 4]) ∧
    got (.nimWrite 0 7 []) sAlloc (·.result) = some (.bytes [0, 0, 0, 0, 7, 0]) := by decide

/-- V-NIM-4, V-NIM-5, V-NIM-6, V-NIM-7 -/
theorem test_nimRead :
    got (.nimRead [0, 0, 3, 0, 2, 0, 9, 8, 7, 6, 5, 4]) s32 (·.result) = some (.image 3 2 [9, 8, 7, 6, 5, 4]) ∧
    got (.nimRead [0, 1, 3, 0, 2, 0, 9, 8, 7, 6, 5, 4]) s32 (·.result) = some (.failed .malformedInput) ∧
    got (.nimRead [0, 0, 3, 0, 2, 0, 9, 8]) s32 (·.result) = some (.failed .malformedInput) ∧
    got (.nimRead [0, 0, 1, 0, 1, 0, 0x2A, 0xFF, 0xFF]) s32 (·.result) = some (.image 1 1 [0x2A]) := by decide

/-! ### Witnesses: for each obligation with hypotheses, a state and operands that meet them -/

/-- The host's list holds one TICK. -/
def sTick : State := { s64 with pending := [⟨.tick, []⟩] }

theorem witness_StepPerformsTheNextTransaction : sTick.pending = ⟨.tick, []⟩ :: [] ∧
    decode sTick.decodeCtx ⟨.tick, []⟩ = .ok .tick ∧ Instr.tick.wellFormed = true := by decide

/-- Clause 1: the empty list; clause 2: TICK with an operand; clause 3: an image one byte short. -/
theorem witness_StepIdlesOrRefusesOtherwise : s64.pending = [] ∧
    decode s64.decodeCtx ⟨.tick, [.num 0]⟩ = .error (.operandsDoNotFit .tick) ∧
    decode s64.decodeCtx ⟨.nimWrite, [.num 1, .num 1, .bytes []]⟩ = .ok (.nimWrite 1 1 []) ∧
    (Instr.nimWrite 1 1 []).wellFormed = false := by decide

/-- A row whose condition the context must meet, and a port that is OUT.NONE without the 1MB map only. -/
theorem witness_DecodeOfEncodeIsTheInstruction :
    (Instr.outRegdata14 9).wellFormed = true ∧ (Instr.outRegdata14 9).selectedIn ⟨true, true, 0x14⟩ = true ∧
    (Instr.outNone 0x7FFD 3).wellFormed = true ∧ (Instr.outNone 0x7FFD 3).selectedIn ⟨false, true, 0⟩ = true ∧
    (Instr.outNone 0x7FFD 3).selectedIn ⟨true, true, 0⟩ = false := by decide

theorem witness_EncodeOfDecodeIsTheRecord :
    decode ⟨true, true, 0x13⟩ ⟨.out, [.num 0x253B, .num 255]⟩ = .ok (.outRegdata13 255) := by decide

/-- Both clauses: a row that is selected, and a port number that no row accepts. -/
theorem witness_SelectedRowIsTheOneTheMapAccepts :
    selectRow ⟨true, true, 0⟩ 0xFFFE = .border ∧ PortRow.border ≠ PortRow.none ∧
    selectRow ⟨false, true, 0⟩ 0x7FFD = .none := by decide

/-- Clause 1: a read of a slot-1 address while the redirect is on; clauses 1 and 2: the redirect captures writes to slot
1 alone; clause 3: 100 bytes. -/
theorem witness_SourcePropertiesOfMemory :
    (got (.xlat 0x7FFF false) { s64 with write0Enable := true } (·.result) = some (.location ⟨5, 0x3FFF⟩) ∧
      State.redirects { s64 with write0Enable := true } 0x7FFF = true) ∧
    State.redirects { s64 with write0Enable := true } 0x3FFF = false ∧
    State.redirects { s64 with write0Enable := true } 0x8000 = false ∧ s64.redirects 0x4000 = false ∧
    (List.replicate 100 (1 : Byte)).length = 100 := by decide

theorem witness_RedirectedWriteIsReadBackOnlyFromTheSameBank :
    State.redirects { s64 with write0Enable := true } 0x4000 = true ∧
    State.redirects { s64 with write0Enable := true } 0x7FFF = true := by decide

theorem witness_WordWrittenIsTheWordRead :
    State.redirects { s64 with write0Enable := true } 0xFFFF = false ∧
    State.redirects { s64 with write0Enable := true } (0xFFFF + 1) = false := by decide

/-- The last address and one byte; clause 1: a location no byte goes to; clause 2: the only byte is the last. -/
theorem witness_BulkwrWritesEachByteThroughTranslation :
    (0xFFFF : Addr).toNat + [(9 : Byte)].length ≤ 65536 ∧
    (∀ i, i < 1 → s64.translate (BitVec.ofNat 16 (0xFFFF + i)) true ≠ ⟨5, 0⟩) ∧
    (∀ j, 0 < j → j < [(9 : Byte)].length →
      s64.translate (BitVec.ofNat 16 (0xFFFF + j)) true ≠ s64.translate (BitVec.ofNat 16 (0xFFFF + 0)) true) := by
  refine ⟨by decide, by decide, fun j h1 h2 => ?_⟩
  simp at h2; omega

/-- The last offset and one byte, and no byte past it. -/
theorem witness_BulkwrbkWritesOnePage : 16383 + [(9 : Byte)].length ≤ 16384 ∧ 16384 + ([] : List Byte).length ≤ 16384 ∧
    (∀ i, i < 1 → (⟨8 % s64.cfg.nbanks, BitVec.ofNat 14 (16383 + i)⟩ : Loc) ≠ ⟨8, 0⟩) := by decide

/-- Each clause at the boundary: one byte past the end, and exactly at it. -/
theorem witness_BulkWritesPastTheEndFailWhole :
    (0xFFFF : Addr).toNat + [(9 : Byte), 9].length > 65536 ∧ 16384 + [(9 : Byte)].length > 16384 ∧
    (0xFFFF : Addr).toNat + [(9 : Byte)].length ≤ 65536 ∧ 16383 + [(9 : Byte)].length ≤ 16384 := by decide

theorem witness_PagingIsAppliedByTheHighWrite : s64.cfg.map1mb = true ∧ s32.cfg.map1mb = false := by decide

theorem witness_RegdataWritesTheLatchedRegister : ({ s64 with regSelect := 0x12 } : State).regSelect = 0x12 ∧
    ({ s64 with regSelect := 0x13 } : State).regSelect = 0x13 ∧
    ({ s64 with regSelect := 0x14 } : State).regSelect = 0x14 := by decide

/-- Clause 1: no register is latched; clause 3: a port next to OUT.L2CTRL, and a paging port without the 1MB map. -/
theorem witness_WritesWithoutEffectChangeNothing :
    (s64.regSelect ≠ 0x12 ∧ s64.regSelect ≠ 0x13 ∧ ¬(s64.regSelect = 0x14 ∧ s64.cfg.hasL2Transp = true)) ∧
    ((0x133B : Addr).toNat % 256 ≠ 0xFE ∧ (0x133B : Addr) ≠ 0x123B ∧ (0x133B : Addr) ≠ 0x243B ∧
      (0x133B : Addr) ≠ 0x253B ∧ (0x133B : Addr) ≠ 0x303B ∧
      (s64.cfg.map1mb = true → (0x133B : Addr) ≠ 0x7FFD ∧ (0x133B : Addr) ≠ 0xDFFD)) ∧
    ((0x7FFD : Addr).toNat % 256 ≠ 0xFE ∧
      (s32.cfg.map1mb = true → (0x7FFD : Addr) ≠ 0x7FFD ∧ (0x7FFD : Addr) ≠ 0xDFFD)) := by decide

/-- The last row of the screen meets the range, and the first row below it does not. -/
theorem witness_BaseLayerAddressesAreBitFields : (191 : BitVec 8).toNat < 192 ∧ ¬(192 : BitVec 8).toNat < 192 := by decide

/-- One position for each clause, with borders of 2 columns and 1 row: outside the frame, on the border next to the
screen, and the last screen pixel. -/
theorem witness_RenderbaseDrawsEveryPixel :
    ¬(194 < 192 + 2 * s64.cfg.borderH ∧ 260 < 256 + 2 * s64.cfg.borderW) ∧
    (0 < 192 + 2 * s64.cfg.borderH ∧ 2 < 256 + 2 * s64.cfg.borderW ∧
      ¬(s64.cfg.borderH ≤ 0 ∧ 0 < s64.cfg.borderH + 192 ∧ s64.cfg.borderW ≤ 2 ∧ 2 < s64.cfg.borderW + 256)) ∧
    191 < 192 ∧ 255 < 256 := by decide

/-- Disabled, enabled, a border position, and the last canvas position. -/
theorem witness_Renderlayer2OverlaysOpaquePixels : s64.enable = false ∧
    ({ s64 with enable := true } : State).enable = true ∧
    ¬(s64.cfg.borderH ≤ 0 ∧ 0 < s64.cfg.borderH + 192 ∧ s64.cfg.borderW ≤ 2 ∧ 2 < s64.cfg.borderW + 256) ∧
    255 < 256 ∧ 191 < 192 := by decide

/-- Two states that differ in every item the statement lets differ, and their next states. -/
theorem witness_ComposeIgnoresTranslationAndEarlierFrames : ∃ s t u v : State,
    s.slot ≠ t.slot ∧ s.write0Enable ≠ t.write0Enable ∧ s.regSelect ≠ t.regSelect ∧
    t = { s with
      slot := t.slot, pagingLow := t.pagingLow, pagingHigh := t.pagingHigh, subBank := t.subBank
      write0Enable := t.write0Enable, regSelect := t.regSelect, redrawRequest := t.redrawRequest
      tickCounter := t.tickCounter, fb := t.fb, crc := t.crc, s1 := t.s1, s2 := t.s2
      pending := t.pending, result := t.result, draws := t.draws } ∧
    exec .compose s = .next u ∧ exec .compose t = .next v :=
  ⟨s64, { s64 with
      slot := #v[0, 5, 2, 63], pagingLow := 7, pagingHigh := 7, subBank := 3, write0Enable := true, regSelect := 0x12
      redrawRequest := true, tickCounter := 15, fb := [], crc := 9, s1 := 9, s2 := 9, pending := [⟨.tick, []⟩]
      result := .ok, draws := 4 },
    _, _, by decide, by decide, by decide, rfl, rfl, rfl⟩

theorem witness_SixteenTicksInvertTheToggleOnce : 0 ≤ 16 ∧ 16 ≤ 16 := by decide

/-- The greatest length, and the first that is too long. -/
theorem witness_StoredBlockLayout : (List.replicate 65535 (0 : Byte)).length ≤ 65535 ∧
    65535 < (List.replicate 65536 (0 : Byte)).length := by
  constructor <;> rw [List.length_replicate]
  decide

theorem witness_StoredStreamSplitsGreedily : sAlloc.allocationFails = false ∧ ([] : List Byte).length ≤ 65535 ∧
    (List.replicate 65535 (0 : Byte)).length ≤ 65535 ∧ 65535 < (List.replicate 65536 (0 : Byte)).length :=
  ⟨rfl, by decide, witness_StoredBlockLayout⟩

theorem witness_PngChunkLayout : ([] : List Byte).length < 2 ^ 31 ∧
    2 ^ 31 ≤ (List.replicate (2 ^ 31) (0 : Byte)).length :=
  ⟨by decide, Nat.le_of_eq List.length_replicate.symm⟩

/-- A 2 by 1 image, and the least height whose raw scanlines at width 1 (5 bytes a row) take a second stored block. -/
theorem witness_PngEncodeIsAStructurallyValidPng :
    ([0, 255].length = 2 * 1 ∧ 6 + 1 * (1 + 4 * 2) + 5 * max 1 ((1 * (1 + 4 * 2) + 65534) / 65535) < 2 ^ 31) ∧
    ((List.replicate 13108 (0 : Byte)).length = 1 * 13108 ∧
      6 + 13108 * (1 + 4 * 1) + 5 * max 1 ((13108 * (1 + 4 * 1) + 65534) / 65535) < 2 ^ 31) ∧
    (List.replicate 256 (0 : Byte)).length = 256 :=
  ⟨by decide, ⟨List.length_replicate, by decide⟩, List.length_replicate⟩

theorem witness_PngScanlinesHoldThePixels : [(0 : Byte), 255].length = 2 * 1 ∧
    (List.replicate 256 (0 : Byte)).length = 256 ∧ 0 < 1 ∧ 1 < 2 := by decide +kernel

/-- Each disjunct of the first clause: `w = 0`, `h = 0`, 2^31 columns or rows (of an image of no pixels), the counts
of index and palette bytes, and the least height at width 1 whose IDAT data reaches 2^31; then the second clause. -/
theorem witness_ImagesOutOfRangeAreRefused :
    ([] : List Byte).length = 0 * 1 ∧ ([] : List Byte).length = 1 * 0 ∧
    ([] : List Byte).length = 2 ^ 31 * 0 ∧ ([] : List Byte).length = 0 * 2 ^ 31 ∧
    [(7 : Byte)].length ≠ 2 * 1 ∧ (List.replicate 255 (0 : Byte)).length ≠ 256 ∧
    (429463963 < 2 ^ 31 ∧ (List.replicate 429463963 (7 : Byte)).length = 1 * 429463963 ∧
      6 + 429463962 * (1 + 4 * 1) + 5 * max 1 ((429463962 * (1 + 4 * 1) + 65534) / 65535) < 2 ^ 31 ∧
      2 ^ 31 ≤ 6 + 429463963 * (1 + 4 * 1) + 5 * max 1 ((429463963 * (1 + 4 * 1) + 65534) / 65535)) ∧
    [(7 : Byte)].length ≠ (1 : BitVec 16).toNat * (2 : BitVec 16).toNat :=
  ⟨rfl, rfl, rfl, rfl, by decide, by decide +kernel, ⟨by decide, List.length_replicate.trans (Nat.one_mul _).symm,
    by decide, by decide⟩, by decide⟩

theorem witness_NimWriteLayout : [(7 : Byte), 8].length = (2 : BitVec 16).toNat * (1 : BitVec 16).toNat ∧
    ([] : List Byte).length = (0 : BitVec 16).toNat * (7 : BitVec 16).toNat := by decide

theorem witness_NimReadFailsClosed : [(0 : Byte), 0, 1, 0, 1].length < 6 := by decide

theorem witness_NimRoundTrip : ∃ t : State, [(7 : Byte)].length = (1 : BitVec 16).toNat * (1 : BitVec 16).toNat ∧
    exec (.nimWrite 1 1 [7]) sAlloc = .next t ∧ t.result = .bytes [0, 0, 1, 0, 1, 0, 7] :=
  ⟨_, by decide, rfl, by decide⟩

/-- RAM contents in canonical form whose last byte is the last byte of the table. -/
theorem witness_ResetMeetsTheInvariants : Memory.wf [(0, 1), (64 * 16384 - 1, 2)] ∧
    ∀ cell ∈ ([(0, 1), (64 * 16384 - 1, 2)] : List (Nat × Byte)), cell.1 < defaultConfig.nbanks * 16384 := by
  constructor
  · constructor
    · simp
    · intro c hc; simp at hc; rcases hc with rfl | rfl <;> decide
  · intro c hc; simp at hc; rcases hc with rfl | rfl <;> decide

/-- The four banks of the state with a TICK to perform. -/
theorem sTick_slots : ∀ i : BitVec 2, sTick.slotBank i < sTick.cfg.nbanks := by decide

/-- A state that meets the invariants and has a step. -/
theorem witness_StepKeepsTheInvariants : sTick.Inv ∧ ∃ t, step sTick = .next t := by
  refine ⟨?_, _, rfl⟩
  exact {
    ramCanonical := Memory.wf_nil
    ramInRange := fun c hc => by cases hc
    slotsInRange := sTick_slots
    slotsFixed := by decide
    slot3High := by decide
    noPaging := by decide
    paletteIdentity := rfl
    frameHeight := by simp [sTick, s64, State.reset, State.resetWith, blankFrame]
    frameWidth := by simp [sTick, s64, State.reset, State.resetWith, blankFrame]
    adlerInRange := by decide }

theorem witness_EveryOperationCompletesInEveryState : (Instr.storedBlock true [0]).wellFormed = true := by decide

/-- Two of the three failures. -/
theorem witness_FailedOperationChangesNothing :
    (∃ t, exec (.bulkwr 0xFFFF [1, 2]) s64 = .next t ∧ t.result = .failed (.boundsExceeded 0xFFFF 2)) ∧
    (∃ t, exec (.nimRead []) s64 = .next t ∧ t.result = .failed .malformedInput) :=
  ⟨⟨_, rfl, by decide⟩, ⟨_, rfl, rfl⟩⟩

/-- The third: the allocation outcome is free, so it is met wherever the outcome is a failure. -/
theorem witness_FailedOperationChangesNothing_allocation (h : Config.allocationFails 0 = true) :
    ∃ t, exec (.storedStream []) s64 = .next t ∧ t.result = .failed .allocationFailed := by
  refine ⟨_, rfl, ?_⟩
  have hf : s64.allocationFails = true := by
    rw [State.allocationFails, show s64.draws = 0 from rfl, h]; rfl
  rw [State.deliverEncoded_eq, hf]; rfl

/-- An operation that meets each premise: a read, and it is neither TICK nor ACKREDRAW nor a bulk write. -/
theorem witness_StateChangesOnlyThroughItsPaths : (∃ t, exec (.rdb 0) s64 = .next t) ∧
    (Instr.rdb 0).writesRam = false ∧ (Instr.rdb 0).writesPorts = false ∧ (Instr.rdb 0).writesFrame = false ∧
    (Instr.rdb 0).writesSums = false ∧ Instr.rdb 0 ≠ .tick ∧ Instr.rdb 0 ≠ .ackredraw ∧
    ∀ a bs, Instr.rdb 0 ≠ .bulkwr a bs :=
  ⟨⟨_, rfl⟩, rfl, rfl, rfl, rfl, by decide, by decide, fun _ _ h => by cases h⟩

/-- The request rises by each of its five sources, a port write by its own port number, and falls by ACKREDRAW. -/
theorem witness_RedrawRequestHasFiveSources : s64.redrawRequest = false ∧
    got (.bulkwr 0xFFFF [1]) s64 (·.redrawRequest) = some true ∧
    got .tick { s64 with tickCounter := 15 } (·.redrawRequest) = some true ∧
    got (.writereg 0x12 0) s64 (·.redrawRequest) = some true ∧
    (got (.outBorder 0xFF 0) s64 (·.redrawRequest) = some true ∧
      encode (.outBorder 0xFF 0) = encode (.out 0xFFFE 0)) ∧
    (got (.outL2ctrl 0) s64 (·.redrawRequest) = some true ∧ encode (.outL2ctrl 0) = encode (.out 0x123B 0)) ∧
    (got (.outRegdata13 0) { s64 with regSelect := 0x13 } (·.redrawRequest) = some true ∧
      encode (.outRegdata13 0) = encode (.out 0x253B 0)) ∧
    got .ackredraw { s64 with redrawRequest := true } (·.redrawRequest) = some false := by decide

/-- A step with a port write that one of the clauses is about, in each of the two variants. -/
theorem witness_WhatNoStepChanges :
    (∃ t, step { s32 with pending := [⟨.out, [.num 0xDFFD, .num 7]⟩] } = .next t) ∧ s32.cfg.banks = .banks32 ∧
    (∃ t, step { s32 with cfg := { defaultConfig with hasL2Transp := false }, regSelect := 0x14
                          pending := [⟨.out, [.num 0x253B, .num 7]⟩] } = .next t) ∧
    (2 : BitVec 2) ≠ 3 :=
  ⟨⟨_, rfl⟩, rfl, ⟨_, rfl⟩, by decide⟩

end Sys2Proof.Tests
end

namespace Sys2Proof.Machine

/-! ### Memory: equations of the byte operations, and the properties of R79 -/

theorem exec_xlat (a : Addr) (w : Bool) (s : State) :
    exec (.xlat a w) s = .next (s.deliver (.location (s.translate a w))) := rfl

theorem exec_rdb (a : Addr) (s : State) : exec (.rdb a) s = .next (s.deliver (.byte (s.readByte a))) := rfl

theorem exec_wrb (a : Addr) (v : Byte) (s : State) :
    exec (.wrb a v) s = .next ((s.writeByte a v).deliver .none) := rfl

/-- BULKWR past the end of the address space fails before any write (40_memory_ops.md R127). -/
theorem exec_bulkwr_overlong {a : Addr} {bs : List Byte} (s : State) (h : logicalSize < a.toNat + bs.length) :
    exec (.bulkwr a bs) s = .next (s.fail (.boundsExceeded a.toNat bs.length)) :=
  if_pos h

/-- The slot's bank, wherever the redirect does not capture the access (20_memory.md R66, R67). -/
theorem State.translate_bank_of_not_captured {s : State} {a : Addr} {w : Bool}
    (h : w = false ∨ s.redirects a = false) : (s.translate a w).bank = s.slotBank (addrSlot a) := by
  obtain rfl | hr := h
  · rw [State.translate_read]
  · simp [State.translate, hr]

@[simp] theorem State.readByte_deliver (s : State) (r : Result) (a : Addr) :
    (s.deliver r).readByte a = s.readByte a := rfl

/-- Outside the redirect a read looks where the write went, so it finds the byte (20_memory.md R67). -/
theorem State.readByte_writeByte_same {s : State} {a : Addr} (v : Byte) (h : s.redirects a = false) :
    (s.writeByte a v).readByte a = v := by
  rw [State.readByte, State.ramByte_writeByte, State.translate_writeByte, if_pos (State.translate_write h).symm]

/-- Settles O12: translation from the fields of the address, the round trip from `State.readByte_writeByte_same`, and
65500 + 100 past the end of the address space. -/
theorem sourcePropertiesOfMemory : Obligations.SourcePropertiesOfMemory := by
  refine ⟨fun a w s => ⟨s.translate a w, exec_xlat a w s, ?_, fun h => ?_⟩, fun a v s h => ?_, fun bs s hlen => ?_⟩
  · rw [State.translate_offset, addrOffset_eq, BitVec.toNat_ofNat, Nat.mod_mod]
  · rw [State.translate_bank_of_not_captured h, addrSlot_eq]
  · refine ⟨_, exec_wrb a v s, ?_⟩
    rw [exec_rdb, State.readByte_deliver, State.readByte_writeByte_same v h]
    rfl
  · have hpast : logicalSize < (65500 : Addr).toNat + bs.length := by rw [hlen]; decide
    rw [exec_bulkwr_overlong s hpast, hlen]
    rfl

end Sys2Proof.Machine

namespace Sys2Proof.Machine

/-! ### Reads: the byte a logical address names, in numbers -/

/-- A read takes the slot's bank, never the redirect's (20_memory.md R66, R67). -/
theorem State.readByte_eq (s : State) (a : Addr) :
    s.readByte a = s.ramByte
      ⟨s.slotBank (BitVec.ofNat 2 (a.toNat / 16384)), BitVec.ofNat 14 (a.toNat % 16384)⟩ := by
  rw [State.readByte, State.translate_read, addrSlot_eq, addrOffset_eq]

/-- Settles O10: RDB delivers the byte that `State.readByte_eq` locates, and delivery replaces the result alone. -/
theorem rdbReadsTheBankTheSlotMaps : Obligations.RdbReadsTheBankTheSlotMaps := by
  intro a s
  rw [exec_rdb, State.readByte_eq, State.deliver]

end Sys2Proof.Machine

namespace Sys2Proof.Machine

/-! ### Ports: the writes without effect, and IN -/

/-- The condition of OUT.REGDATA.NONE: the latched index names no register the block has (41_port_ops.md R149). -/
theorem condition_regdataNone {ctx : DecodeCtx} :
    PortRow.condition ctx .regdataNone = true ↔
      ctx.regSelect ≠ 0x12 ∧ ctx.regSelect ≠ 0x13 ∧ ¬(ctx.regSelect = 0x14 ∧ ctx.hasL2Transp = true) := by
  simp [PortRow.condition, and_assoc, imp_iff_not_or]

/-- A port no row of the decode map names selects OUT.NONE; the paging ports are among them where their rows are
absent (41_port_ops.md R140, R150). -/
theorem selectRow_unlisted {ctx : DecodeCtx} {p : Addr} (hborder : p.toNat % 256 ≠ 0xFE) (hl2ctrl : p ≠ portL2ctrl)
    (hregsel : p ≠ portRegsel) (hregdata : p ≠ portRegdata) (hrsvd : p ≠ portRsvd)
    (hpaging : ctx.map1mb = true → p ≠ portPagelo ∧ p ≠ portPagehi) : selectRow ctx p = .none := by
  have hlow : p.extractLsb' 0 8 ≠ portBorderLow := fun h => hborder (low_byte_eq.1 h)
  have hlo : ¬(p = portPagelo ∧ ctx.map1mb = true) := fun h => (hpaging h.2).1 h.1
  have hhi : ¬(p = portPagehi ∧ ctx.map1mb = true) := fun h => (hpaging h.2).2 h.1
  rw [selectRow, if_neg hlow, if_neg hlo, if_neg hhi, if_neg hl2ctrl, if_neg hregsel, if_neg hregdata, if_neg hrsvd]

theorem exec_outRegdataNone {s : State} (v : Byte) (h : PortRow.condition s.decodeCtx .regdataNone = true) :
    exec (.outRegdataNone v) s = .next (s.deliver .none) := by
  rw [exec, execOutRegdataNone, if_pos h]

theorem exec_outRsvd (v : Byte) (s : State) : exec (.outRsvd v) s = .next (s.deliver .none) := rfl

theorem exec_outNone {s : State} {p : Addr} (v : Byte) (h : selectRow s.decodeCtx p = .none) :
    exec (.outNone p v) s = .next (s.deliver .none) := by
  rw [exec, execOutNone, if_pos h]

theorem exec_inp (p : Addr) (s : State) : exec (.inp p) s = .next (s.deliver (.byte (portIn p))) := rfl

/-- Settles O24: the premises are the conditions under which the map selects OUT.REGDATA.NONE and OUT.NONE; OUT.RSVD
needs none. -/
theorem writesWithoutEffectChangeNothing : Obligations.WritesWithoutEffectChangeNothing := by
  refine ⟨fun v s h12 h13 h14 => ?_, exec_outRsvd,
    fun p v s hborder hl2ctrl hregsel hregdata hrsvd hpaging => ?_⟩
  · exact exec_outRegdataNone v (condition_regdataNone.2 ⟨h12, h13, h14⟩)
  · exact exec_outNone v (selectRow_unlisted hborder hl2ctrl hregsel hregdata hrsvd hpaging)

/-- Settles O25: `portIn` is 0 for every port, and delivery replaces the result alone. -/
theorem inReturnsZero : Obligations.InReturnsZero := by
  intro p s
  rw [exec_inp, portIn, State.deliver]

end Sys2Proof.Machine

namespace Sys2Proof.Machine

/-! ### The NIM container: writing, then reading back -/

/-- NIM_READ on the layout of a container: the version, the sizes and the rest, whatever they hold
(45_png_nim_ops.md R246, R247). -/
theorem nimRead_le16_fields (v w h : BitVec 16) (rest : List Byte) :
    nimRead (le16 v ++ le16 w ++ le16 h ++ rest) =
      if v ≠ 0 then .failed .malformedInput
      else if rest.length < w.toNat * h.toNat then .failed .malformedInput
      else .image w h (rest.take (w.toNat * h.toNat)) := by
  simp only [le16, List.cons_append, List.nil_append, nimRead, pair_of_word]

/-- The version is 0 and the image has the length its sizes announce, so NIM_READ rejects neither. -/
theorem nimRead_nimWrite {w h : BitVec 16} {img : List Byte} (hlen : img.length = w.toNat * h.toNat) :
    nimRead (nimWrite w h img) = .image w h img := by
  rw [nimWrite, nimRead_le16_fields, if_neg (not_not.2 rfl), ← hlen, if_neg (lt_irrefl _), List.take_length]

/-- Bytes that an encoder delivers are those it encoded; its other outcome is AllocationFailed
(44_deflate_zlib_ops.md R226). -/
theorem State.eq_of_deliverEncoded_result {s : State} {bs out : List Byte}
    (h : (s.deliverEncoded bs).result = .bytes out) : out = bs := by
  rw [State.deliverEncoded_eq] at h
  dsimp only at h
  split at h
  · cases h
  · cases h
    rfl

theorem exec_nimWrite {w h : BitVec 16} {img : List Byte} (s : State) (hlen : img.length = w.toNat * h.toNat) :
    exec (.nimWrite w h img) s = .next (s.deliverEncoded (nimWrite w h img)) :=
  if_pos (beq_iff_eq.2 hlen)

theorem exec_nimRead (bs : List Byte) (s : State) : exec (.nimRead bs) s = .next (s.deliver (nimRead bs)) := rfl

/-- Settles O51: delivered bytes are the container itself, and `nimRead_nimWrite` reads it back. -/
theorem nimRoundTrip : Obligations.NimRoundTrip := by
  intro w h img out s t u hlen hwrite hout
  rw [exec_nimWrite s hlen] at hwrite
  cases hwrite
  obtain rfl := State.eq_of_deliverEncoded_result hout
  rw [exec_nimRead, nimRead_nimWrite hlen, State.deliver]

end Sys2Proof.Machine

namespace Sys2Proof.Machine

/-! ### Bulk writes: the bound decides between failing whole and succeeding -/

/-- BULKWR within the address space writes, requests a redraw and succeeds (40_memory_ops.md R127). -/
theorem exec_bulkwr_fits {a : Addr} {bs : List Byte} (s : State) (h : a.toNat + bs.length ≤ logicalSize) :
    exec (.bulkwr a bs) s = .next ((s.writeBytes a bs).requestRedraw.deliver .ok) :=
  if_neg h.not_gt

/-- BULKWRBK past the end of the bank fails before any write (40_memory_ops.md R128). -/
theorem exec_bulkwrbk_overlong {o : Nat} {bs : List Byte} (b : Nat) (s : State) (h : pageSize < o + bs.length) :
    exec (.bulkwrbk b o bs) s = .next (s.fail (.boundsExceeded o bs.length)) :=
  if_pos h

/-- BULKWRBK within the bank writes and succeeds; it requests no redraw (40_memory_ops.md R128). -/
theorem exec_bulkwrbk_fits {o : Nat} {bs : List Byte} (b : Nat) (s : State) (h : o + bs.length ≤ pageSize) :
    exec (.bulkwrbk b o bs) s = .next ((s.writeBankBytes (wrapBank s.cfg b) o bs).deliver .ok) :=
  if_neg h.not_gt

/-- Settles O20: the two bounds are `logicalSize` and `pageSize`, and each side of either has its equation; a failure
replaces the result alone. -/
theorem bulkWritesPastTheEndFailWhole : Obligations.BulkWritesPastTheEndFailWhole := by
  refine ⟨fun a bs s h => ?_, fun b o bs s h => ?_, fun a bs s h => ?_, fun b o bs s h => ?_⟩
  · rw [exec_bulkwr_overlong s h, State.fail, State.deliver]
  · rw [exec_bulkwrbk_overlong b s h, State.fail, State.deliver]
  · exact ⟨_, exec_bulkwr_fits s h, State.deliver_result ..⟩
  · exact ⟨_, exec_bulkwrbk_fits b s h, State.deliver_result ..⟩

end Sys2Proof.Machine

namespace Sys2Proof

/-! ### The port decode map: the row selected is the row that accepts -/

/-- The row the tests select accepts the port number. -/
theorem accepts_of_selectRow {ctx : DecodeCtx} {p : Addr} {row : PortRow} (hrow : row ≠ .none)
    (h : selectRow ctx p = row) : row.accepts ctx p = true := by
  unfold selectRow at h
  repeat' split at h
  all_goals subst h
  case isTrue hb => exact (PortRow.accepts_border ctx p).2 hb
  all_goals simp_all [PortRow.accepts_exact, PortRow.pattern, PortRow.condition, imp_iff_not_or]

/-- A row that accepts the port number is the one the tests select: an earlier test that held would be of another port
number, or of another condition on the same one. -/
theorem selectRow_of_accepts {ctx : DecodeCtx} {p : Addr} {row : PortRow} (hrow : row ≠ .none)
    (h : row.accepts ctx p = true) : selectRow ctx p = row := by
  by_cases hb : row = .border
  · subst hb
    rw [selectRow, if_pos ((PortRow.accepts_border ctx p).1 h)]
  obtain ⟨rfl, hc⟩ := (PortRow.accepts_exact ctx p hb hrow).1 h
  cases row with
  | border | none => contradiction
  | pagelo => exact (selectRow_pagelo ctx).trans (if_pos hc)
  | pagehi => exact (selectRow_pagehi ctx).trans (if_pos hc)
  | l2ctrl => exact selectRow_l2ctrl ctx
  | regsel => exact selectRow_regsel ctx
  | rsvd => exact selectRow_rsvd ctx
  | regdataNone => exact selectRow_regdataNone hc
  | regdata12 | regdata13 | regdata14 =>
    refine (selectRow_regdata ctx).trans ?_
    simp_all [PortRow.condition]

/-- The map selects at most one row, by the tests or by the masks (30_encoding.md R94). -/
theorem selectRow_eq_iff_accepts {ctx : DecodeCtx} {p : Addr} {row : PortRow} (hrow : row ≠ .none) :
    selectRow ctx p = row ↔ row.accepts ctx p = true :=
  ⟨accepts_of_selectRow hrow, selectRow_of_accepts hrow⟩

/-- Settles O6: `selectRow_eq_iff_accepts` for a row of the map; OUT.NONE is what is left. -/
theorem selectedRowIsTheOneTheMapAccepts : Obligations.SelectedRowIsTheOneTheMapAccepts := by
  refine fun ctx port row => ⟨selectRow_eq_iff_accepts, fun hnone other hother => ?_, fun h => ?_⟩
  · rw [Bool.eq_false_iff, ne_eq, ← selectRow_eq_iff_accepts hother, hnone]
    exact hother.symm
  · by_contra hsel
    have := accepts_of_selectRow hsel rfl
    rw [h _ hsel] at this
    cases this

/-- The condition of a row holds wherever it is selected. -/
theorem condition_of_selectRow {ctx : DecodeCtx} {p : Addr} {row : PortRow} (hrow : row ≠ .none)
    (h : selectRow ctx p = row) : row.condition ctx = true :=
  (Bool.and_eq_true_iff.1 (accepts_of_selectRow hrow h)).2

/-! ### Decoding the record of an operation -/

theorem decodePortWrite_of {ctx : DecodeCtx} {p : Addr} {row : PortRow} (h : selectRow ctx p = row) (v : Byte) :
    decodePortWrite ctx p v = rowInstr row p v := by
  rw [decodePortWrite, h]

/-- A port row's record decodes to the row where its port number selects it. -/
theorem decode_encode_of_row {ctx : DecodeCtx} {i : Instr} {p : Addr} {v : Byte} {row : PortRow}
    (he : encode i = encodePortWrite p v) (hrow : selectRow ctx p = row) (hi : rowInstr row p v = i) :
    decode ctx (encode i) = .ok i := by
  rw [he, decode_encodePortWrite, decodePortWrite_of hrow, hi]

/-- A row that stands on one port number is selected there in every context that meets its condition. -/
theorem selectRow_pattern {ctx : DecodeCtx} {row : PortRow} (hc : row.condition ctx = true) (hb : row ≠ .border)
    (hn : row ≠ .none) : selectRow ctx row.pattern = row :=
  selectRow_of_accepts hn ((PortRow.accepts_exact ctx _ hb hn).2 ⟨rfl, hc⟩)

theorem decode_encode_of_condition {ctx : DecodeCtx} {i : Instr} {v : Byte} (row : PortRow)
    (he : encode i = encodePortWrite row.pattern v) (hi : rowInstr row row.pattern v = i)
    (hc : row.condition ctx = true) (hb : row ≠ .border) (hn : row ≠ .none) : decode ctx (encode i) = .ok i :=
  decode_encode_of_row he (selectRow_pattern hc hb hn) hi

/-- OUT.NONE is selected by a port that is outside the map and, with the 1MB map, no paging port. -/
theorem selectRow_outNone {ctx : DecodeCtx} {p : Addr} {v : Byte} (hwf : (Instr.outNone p v).wellFormed = true)
    (hsel : (Instr.outNone p v).selectedIn ctx = true) : selectRow ctx p = .none := by
  simp only [Instr.wellFormed, Machine.outNoneOk, Bool.and_eq_true, bne_iff_ne] at hwf
  obtain ⟨⟨⟨⟨hlow, hl2ctrl⟩, hregsel⟩, hregdata⟩, hrsvd⟩ := hwf
  have hpaging : ctx.map1mb = true → p ≠ Machine.portPagelo ∧ p ≠ Machine.portPagehi := fun hm => by
    simpa [Instr.selectedIn, hm] using hsel
  exact Machine.selectRow_unlisted (fun h => hlow (Machine.low_byte_eq.2 h)) hl2ctrl hregsel hregdata hrsvd hpaging

/-- Settles O4: a port row is the one its port number selects; every other record is read back operand by operand. -/
theorem decodeOfEncodeIsTheInstruction : Obligations.DecodeOfEncodeIsTheInstruction := by
  intro ctx i hwf hsel
  cases i with
  | out p v => cases hsel
  | outBorder hi v =>
    refine decode_encode_of_row rfl (selectRow_border ctx hi) ?_
    rw [rowInstr, Machine.extract_high_pair]
  | outPagelo => exact decode_encode_of_condition .pagelo rfl rfl hsel (by decide) (by decide)
  | outPagehi => exact decode_encode_of_condition .pagehi rfl rfl hsel (by decide) (by decide)
  | outL2ctrl => exact decode_encode_of_condition .l2ctrl rfl rfl rfl (by decide) (by decide)
  | outRegsel => exact decode_encode_of_condition .regsel rfl rfl rfl (by decide) (by decide)
  | outRegdata12 => exact decode_encode_of_condition .regdata12 rfl rfl hsel (by decide) (by decide)
  | outRegdata13 => exact decode_encode_of_condition .regdata13 rfl rfl hsel (by decide) (by decide)
  | outRegdata14 => exact decode_encode_of_condition .regdata14 rfl rfl hsel (by decide) (by decide)
  | outRegdataNone => exact decode_encode_of_condition .regdataNone rfl rfl hsel (by decide) (by decide)
  | outRsvd => exact decode_encode_of_condition .rsvd rfl rfl rfl (by decide) (by decide)
  | outNone p v => exact decode_encode_of_row rfl (selectRow_outNone hwf hsel) rfl
  | _ => exact decode_eq_ok.2 (by simp [encode, decodeOperands, read5, read3, read2, read1, read0])

end Sys2Proof

namespace Sys2Proof

/-! ### The record an operation was decoded from -/

section
variable {ctx : DecodeCtx} {k : Kind} {i : Instr} {ops : List Operand}

/-- The record of `i` is the one of this kind with these operands, and the context selects `i`. -/
def IsRecordOf (ctx : DecodeCtx) (k : Kind) (ops : List Operand) (i : Instr) : Prop :=
  encode i = ⟨k, ops⟩ ∧ i.selectedIn ctx = true

theorem isRecordOf_read0 {mk : Instr} (hmk : IsRecordOf ctx k [] mk) (h : read0 mk ops = some i) :
    IsRecordOf ctx k ops i := by
  obtain ⟨rfl, rfl⟩ := read0_eq_some.1 h
  exact hmk

theorem isRecordOf_read1 {α : Type} {f : Operand → Option α} {ef : α → Operand} {mk : α → Instr}
    (hf : ∀ {o x}, f o = some x → o = ef x) (hmk : ∀ x, IsRecordOf ctx k [ef x] (mk x))
    (h : read1 f mk ops = some i) : IsRecordOf ctx k ops i := by
  obtain ⟨a, x, rfl, ha, rfl⟩ := read1_eq_some.1 h
  exact hf ha ▸ hmk x

theorem isRecordOf_read2 {α β : Type} {f : Operand → Option α} {g : Operand → Option β} {ef : α → Operand}
    {eg : β → Operand} {mk : α → β → Instr} (hf : ∀ {o x}, f o = some x → o = ef x)
    (hg : ∀ {o y}, g o = some y → o = eg y) (hmk : ∀ x y, IsRecordOf ctx k [ef x, eg y] (mk x y))
    (h : read2 f g mk ops = some i) : IsRecordOf ctx k ops i := by
  obtain ⟨a, b, x, y, rfl, ha, hb, rfl⟩ := read2_eq_some.1 h
  exact hf ha ▸ hg hb ▸ hmk x y

theorem isRecordOf_read3 {α β γ : Type} {f : Operand → Option α} {g : Operand → Option β} {e : Operand → Option γ}
    {ef : α → Operand} {eg : β → Operand} {ee : γ → Operand} {mk : α → β → γ → Instr}
    (hf : ∀ {o x}, f o = some x → o = ef x) (hg : ∀ {o y}, g o = some y → o = eg y)
    (he : ∀ {o z}, e o = some z → o = ee z) (hmk : ∀ x y z, IsRecordOf ctx k [ef x, eg y, ee z] (mk x y z))
    (h : read3 f g e mk ops = some i) : IsRecordOf ctx k ops i := by
  obtain ⟨a, b, c, x, y, z, rfl, ha, hb, hc, rfl⟩ := read3_eq_some.1 h
  exact hf ha ▸ hg hb ▸ he hc ▸ hmk x y z

end

open Operand in
/-- The operands of a record stand in the record of what they decode to: each reader accepts one operand for each
value, and each format as many operands as it reads. -/
theorem isRecordOf_of_decodeOperands {ctx : DecodeCtx} {k : Kind} {ops : List Operand} {i : Instr}
    (h : decodeOperands ctx k ops = some i) : IsRecordOf ctx k ops i := by
  cases k with
  | out =>
    exact isRecordOf_read2 eq_of_bits eq_of_bits
      (fun p v => ⟨encode_decodePortWrite ctx p v, selectedIn_decodePortWrite ctx p v⟩) h
  | renderbase | renderlayer2 | compose | tick | ackredraw | crcInit | crcFinal | adlerInit | adlerFinal =>
    exact isRecordOf_read0 ⟨rfl, rfl⟩ h
  | rdb | rdw | inp | readreg | crcByte | adlerByte => exact isRecordOf_read1 eq_of_bits (fun _ => ⟨rfl, rfl⟩) h
  | crc32 | adler32 | storedStream | zlibWrap | nimRead => exact isRecordOf_read1 eq_of_seq (fun _ => ⟨rfl, rfl⟩) h
  | xlat => exact isRecordOf_read2 eq_of_bits eq_of_flag (fun _ _ => ⟨rfl, rfl⟩) h
  | wrb | wrw | writereg => exact isRecordOf_read2 eq_of_bits eq_of_bits (fun _ _ => ⟨rfl, rfl⟩) h
  | rdbk => exact isRecordOf_read2 eq_of_nat eq_of_nat (fun _ _ => ⟨rfl, rfl⟩) h
  | bulkwr => exact isRecordOf_read2 eq_of_bits eq_of_seq (fun _ _ => ⟨rfl, rfl⟩) h
  | storedBlock => exact isRecordOf_read2 eq_of_flag eq_of_seq (fun _ _ => ⟨rfl, rfl⟩) h
  | pngChunk => exact isRecordOf_read2 eq_of_chunkType eq_of_seq (fun _ _ => ⟨rfl, rfl⟩) h
  | wrbk => exact isRecordOf_read3 eq_of_nat eq_of_nat eq_of_bits (fun _ _ _ => ⟨rfl, rfl⟩) h
  | bulkwrbk => exact isRecordOf_read3 eq_of_nat eq_of_nat eq_of_seq (fun _ _ _ => ⟨rfl, rfl⟩) h
  | nimWrite => exact isRecordOf_read3 eq_of_bits eq_of_bits eq_of_seq (fun _ _ _ => ⟨rfl, rfl⟩) h
  | pngEncode =>
    obtain ⟨_, _, _, _, _, w, h, idx, pal, t, rfl, hw, hh, hidx, hpal, ht, rfl⟩ := read5_eq_some.1 h
    rw [eq_of_nat hw, eq_of_nat hh, eq_of_seq hidx, eq_of_seq hpal, eq_of_bits ht]
    exact ⟨rfl, rfl⟩

/-- Settles O5, kind by kind. -/
theorem encodeOfDecodeIsTheRecord : Obligations.EncodeOfDecodeIsTheRecord :=
  fun _ _ _ h => isRecordOf_of_decodeOperands (decode_eq_ok.1 h)

end Sys2Proof

namespace Sys2Proof.Machine

/-! ### The invariants: kept by every effect, so by every step -/

/-- The bank a slot maps after slot 3 has been replaced. -/
theorem getElem_set_slot3 (v : Vector (BitVec 6) 4) (b : BitVec 6) (i : BitVec 2) :
    (v.set 3 b)[i.toNat]'i.isLt = if i = 3 then b else v[i.toNat]'i.isLt := by
  rw [Vector.getElem_set]
  congr 1
  rw [← BitVec.toNat_inj]
  exact propext eq_comm

theorem State.slotBank_rowPagehi (s : State) (v : Byte) (i : BitVec 2) :
    (s.rowPagehi v).slotBank i = if i = 3 then s.pagingLow.toNat + v.toNat % 8 * 8 else s.slotBank i := by
  simp only [State.slotBank, State.rowPagehi_slot, getElem_set_slot3, pagedBank_eq]
  split
  · have := s.pagingLow.isLt
    rw [BitVec.toNat_ofNat]; omega
  · rfl

/-- A new value of items the invariants do not speak of. -/
theorem State.Inv.congr {s t : State} (h : s.Inv) (hcfg : t.cfg = s.cfg) (hram : t.ram = s.ram)
    (hslot : t.slot = s.slot) (hlow : t.pagingLow = s.pagingLow) (hhigh : t.pagingHigh = s.pagingHigh)
    (hpal : t.palette = s.palette) (hfb : t.fb = s.fb) (h1 : t.s1 = s.s1) (h2 : t.s2 = s.s2) : t.Inv := by
  obtain ⟨⟩ := s
  obtain ⟨⟩ := t
  subst hcfg hram hslot hlow hhigh hpal hfb h1 h2
  exact { h with }

theorem State.Inv.deliver {s : State} (h : s.Inv) (r : Result) : (s.deliver r).Inv :=
  h.congr rfl rfl rfl rfl rfl rfl rfl rfl rfl

theorem State.Inv.requestRedraw {s : State} (h : s.Inv) : s.requestRedraw.Inv :=
  h.congr rfl rfl rfl rfl rfl rfl rfl rfl rfl

/-- A byte written in a bank of the table. -/
theorem State.Inv.setRamByte {s : State} (h : s.Inv) {l : Loc} (hl : l.bank < s.cfg.nbanks) (v : Byte) :
    (s.setRamByte l v).Inv :=
  { h with
    ramCanonical := Memory.write_wf h.ramCanonical _ _
    ramInRange := fun c hc => by
      rcases Memory.mem_write hc with hkey | hold
      · exact hkey ▸ Loc.key_lt hl
      · exact h.ramInRange c hold }

theorem State.Inv.setRamBytes {s : State} (h : s.Inv) {ws : List (Loc × Byte)}
    (hws : ∀ w ∈ ws, w.1.bank < s.cfg.nbanks ∨ ∃ j, w.1.bank = s.slotBank j) : (s.setRamBytes ws).Inv := by
  induction ws generalizing s with
  | nil => exact h
  | cons w ws ih =>
    obtain ⟨hw, hrest⟩ := List.forall_mem_cons.1 hws
    refine ih (h.setRamByte ?_ w.2) hrest
    rcases hw with hlt | ⟨j, hj⟩
    · exact hlt
    · exact hj ▸ h.slotsInRange j

/-- With the 1MB map there are 64 banks (00_scope.md R6, decision D4). -/
theorem nbanks_of_map1mb {c : Config} (h : c.map1mb = true) : c.nbanks = 64 := by
  unfold Config.map1mb at h
  unfold Config.nbanks
  split <;> simp_all

/-- OUT.PAGEHI, which only the 1MB map has, maps slot 3 to one of 64 banks. -/
theorem State.Inv.rowPagehi {s : State} (h : s.Inv) (hmap : s.cfg.map1mb = true) (v : Byte) : (s.rowPagehi v).Inv :=
  { h with
    slotsInRange := fun i => by
      rw [State.rowPagehi_cfg, nbanks_of_map1mb hmap]
      exact ((s.rowPagehi v).slot[i.toNat]'i.isLt).isLt
    slotsFixed := by
      simp only [State.slotBank_rowPagehi]
      exact h.slotsFixed
    slot3High := by
      have := s.pagingLow.isLt
      rw [State.slotBank_rowPagehi, if_pos rfl, State.rowPagehi_pagingHigh, low3_eq, BitVec.toNat_ofNat]
      omega
    noPaging := fun hno => absurd (hmap.symm.trans hno) (by decide) }

/-- OUT.PAGELO, which only the 1MB map has, leaves slot 3 (41_port_ops.md R142). -/
theorem State.Inv.rowPagelo {s : State} (h : s.Inv) (hmap : s.cfg.map1mb = true) (v : Byte) : (s.rowPagelo v).Inv :=
  { h with noPaging := fun hno => absurd (hmap.symm.trans hno) (by decide) }

/-- A paging row is selected with the 1MB map alone, and no other row writes an item of the invariants. -/
theorem State.Inv.portOut {s : State} (h : s.Inv) (p : Addr) (v : Byte) : (s.portOut p v).Inv := by
  rw [State.portOut]
  cases hrow : selectRow s.decodeCtx p with
  | pagelo => exact h.rowPagelo (condition_of_selectRow (by decide) hrow) v
  | pagehi => exact h.rowPagehi (condition_of_selectRow (by decide) hrow) v
  | border | l2ctrl | regsel | regdata12 | regdata13 | regdata14 | regdataNone | rsvd | none =>
    exact h.congr rfl rfl rfl rfl rfl rfl rfl rfl rfl

/-- A new frame of the old size or of the parameters' size. -/
theorem State.Inv.withFrame {s : State} (h : s.Inv) {fb : List (List Rgb)}
    (hfb : (fb.length = fbHeight s.cfg ∧ ∀ row ∈ fb, row.length = fbWidth s.cfg) ∨
      (fb.length = s.fb.length ∧ ∀ w, (∀ row ∈ s.fb, row.length = w) → ∀ row ∈ fb, row.length = w)) :
    State.Inv { s with fb := fb } := by
  have hshape : fb.length = fbHeight s.cfg ∧ ∀ row ∈ fb, row.length = fbWidth s.cfg := by
    rcases hfb with hnew | ⟨hlen, hwidth⟩
    · exact hnew
    · exact ⟨hlen.trans h.frameHeight, hwidth _ h.frameWidth⟩
  exact { h with frameHeight := hshape.1, frameWidth := hshape.2 }

theorem State.Inv.flashTick {s : State} (h : s.Inv) : s.flashTick.Inv := by
  rw [State.flashTick_eq]
  split <;> exact h.congr rfl rfl rfl rfl rfl rfl rfl rfl rfl

theorem Effect.inv {i : Instr} {s t : State} (he : Effect i s t) (h : s.Inv) : t.Inv := by
  cases he with
  | deliver r => exact h.deliver r
  | encoded bs =>
    rw [State.deliverEncoded_eq]
    exact h.congr rfl rfl rfl rfl rfl rfl rfl rfl rfl
  | ram ws r _ hb => exact (h.setRamBytes hb).deliver r
  | bulk a bs ws _ _ hb => exact (h.setRamBytes hb).requestRedraw.deliver _
  | port p v => exact (h.portOut p v).deliver _
  | writereg r v =>
    have hsel : (s.rowRegsel r).Inv := h.congr rfl rfl rfl rfl rfl rfl rfl rfl rfl
    exact (hsel.portOut portRegdata v).deliver _
  | readreg r => exact h.congr rfl rfl rfl rfl rfl rfl rfl rfl rfl
  | frame fb _ hf => exact (h.withFrame hf).deliver _
  | tick => exact h.flashTick.deliver _
  | ackredraw => exact h.congr rfl rfl rfl rfl rfl rfl rfl rfl rfl
  | sums c a b _ hs =>
    have hlt : a.toNat < adlerMod ∧ b.toNat < adlerMod := by
      rcases hs with ⟨rfl, rfl⟩ | hlt
      · exact h.adlerInRange
      · exact hlt
    have hsums : State.Inv { s with crc := c, s1 := a, s2 := b } := { h with adlerInRange := hlt }
    exact hsums.deliver _

/-- A step idles, or performs a well-formed operation on the state with its record taken off the list. -/
theorem step_cases {s t : State} (h : step s = .next t) :
    t = s ∨ ∃ (i : Instr) (rest : List Transaction),
      i.wellFormed = true ∧ exec i { s with pending := rest } = .next t := by
  unfold step at h
  split at h
  · injection h with h
    exact .inl h.symm
  next rest _ =>
    split at h
    · cases h
    next i _ =>
      split at h
      next hwf => exact .inr ⟨i, rest, hwf, h⟩
      · cases h

/-- Settles O53: every effect of an operation keeps the invariants, and none of them speaks of the host's list. -/
theorem stepKeepsTheInvariants : Obligations.StepKeepsTheInvariants := by
  intro s t hs h
  rcases step_cases h with rfl | ⟨i, rest, -, hexec⟩
  · exact hs
  · exact (exec_effect hexec).inv (hs.congr rfl rfl rfl rfl rfl rfl rfl rfl rfl)

end Sys2Proof.Machine

namespace Sys2Proof.Machine

/-! ### Ports: an operation whose record is a port write is that port write -/

theorem encodePortWrite_inj {p q : Addr} {v w : Byte} : encodePortWrite p v = encodePortWrite q w ↔ p = q ∧ v = w := by
  simp [encodePortWrite, BitVec.toNat_inj]

theorem exec_out (p : Addr) (v : Byte) (s : State) : exec (.out p v) s = .next ((s.portOut p v).deliver .none) := rfl

/-- OUT where the row its port number selects is known (41_port_ops.md R140). -/
theorem exec_out_of {s : State} {p : Addr} {row : PortRow} (h : selectRow s.decodeCtx p = row) (v : Byte) :
    exec (.out p v) s = .next ((s.rowEffect v row).deliver .none) := by
  rw [exec_out, State.portOut_of h]

/-- A decoded row is guarded by a condition under which its port number selects it, so it is the port write. -/
theorem exec_guarded_row {s : State} {p : Addr} {row : PortRow} {c : Prop} [Decidable c]
    (h : c → selectRow s.decodeCtx p = row) (v : Byte) :
    (.next ((if c then s.rowEffect v row else s.portOut p v).deliver .none) : Answer) = exec (.out p v) s := by
  split
  · exact (exec_out_of (h ‹_›) v).symm
  · exact (exec_out p v s).symm

/-- An operation whose record is that of a port write is that port write, whatever row it names and whatever row the
state selects (41_port_ops.md R140; log entry 4). -/
theorem exec_eq_exec_out {i : Instr} {p : Addr} {v : Byte} (h : encode i = encodePortWrite p v) (s : State) :
    exec i s = exec (.out p v) s := by
  have of_condition (row : PortRow) (hb : row ≠ .border) (hn : row ≠ .none) (v : Byte) :
      (.next ((if row.condition s.decodeCtx then s.rowEffect v row else s.portOut row.pattern v).deliver .none) :
        Answer) = exec (.out row.pattern v) s :=
    exec_guarded_row (fun hc => selectRow_pattern hc hb hn) v
  suffices hport : ∃ q w, encode i = encodePortWrite q w ∧ exec i s = exec (.out q w) s by
    obtain ⟨q, w, hrec, hexec⟩ := hport
    obtain ⟨rfl, rfl⟩ := encodePortWrite_inj.1 (h.symm.trans hrec)
    exact hexec
  cases i with
  | out q w => exact ⟨q, w, rfl, rfl⟩
  | outBorder hi w => exact ⟨_, w, rfl, (exec_out_of (selectRow_border _ hi) w).symm⟩
  | outL2ctrl w => exact ⟨_, w, rfl, (exec_out_of (selectRow_l2ctrl _) w).symm⟩
  | outRegsel w => exact ⟨_, w, rfl, (exec_out_of (selectRow_regsel _) w).symm⟩
  | outRsvd w => exact ⟨_, w, rfl, (exec_out_of (selectRow_rsvd _) w).symm⟩
  | outPagelo w => exact ⟨_, w, rfl, of_condition .pagelo (by decide) (by decide) w⟩
  | outPagehi w => exact ⟨_, w, rfl, of_condition .pagehi (by decide) (by decide) w⟩
  | outRegdata12 w => exact ⟨_, w, rfl, of_condition .regdata12 (by decide) (by decide) w⟩
  | outRegdata13 w => exact ⟨_, w, rfl, of_condition .regdata13 (by decide) (by decide) w⟩
  | outRegdata14 w => exact ⟨_, w, rfl, of_condition .regdata14 (by decide) (by decide) w⟩
  | outRegdataNone w => exact ⟨_, w, rfl, of_condition .regdataNone (by decide) (by decide) w⟩
  | outNone q w => exact ⟨q, w, rfl, exec_guarded_row (row := .none) id w⟩
  | _ => simp [encode, encodePortWrite] at h

/-- Settles O8: each row's record is the port write's on its port. -/
theorem rowOutsideItsConditionIsThePortWrite : Obligations.RowOutsideItsConditionIsThePortWrite :=
  fun _ _ _ s => ⟨exec_eq_exec_out rfl s, exec_eq_exec_out rfl s, exec_eq_exec_out rfl s, exec_eq_exec_out rfl s,
    exec_eq_exec_out rfl s, exec_eq_exec_out rfl s, exec_eq_exec_out rfl s, exec_eq_exec_out rfl s,
    exec_eq_exec_out rfl s, exec_eq_exec_out rfl s, exec_eq_exec_out rfl s⟩

/-! ### Ports: the effect of each row, in numbers -/

theorem State.rowBorder_eq (s : State) (v : Byte) :
    s.rowBorder v = { s with border := BitVec.ofNat 3 (v.toNat % 8), redrawRequest := true } := by
  rw [State.rowBorder, low3_eq, State.requestRedraw]

theorem State.rowPagelo_eq (s : State) (v : Byte) :
    s.rowPagelo v = { s with pagingLow := BitVec.ofNat 3 (v.toNat % 8) } := by
  rw [State.rowPagelo, low3_eq]

theorem State.rowPagehi_eq (s : State) (v : Byte) : s.rowPagehi v = { s with
    pagingHigh := BitVec.ofNat 3 (v.toNat % 8)
    slot := s.slot.set 3 (BitVec.ofNat 6 (s.pagingLow.toNat + v.toNat % 8 * 8)) } := by
  rw [State.rowPagehi, pagedBank_eq, low3_eq]

theorem State.rowL2ctrl_eq (s : State) (v : Byte) : s.rowL2ctrl v = { s with
    subBank := BitVec.ofNat 2 (v.toNat / 64)
    shadowEnable := v.getLsbD 3
    enable := v.getLsbD 1
    write0Enable := v.getLsbD 0
    redrawRequest := true } := by
  rw [State.rowL2ctrl, ctrlSubBank_eq]; rfl

theorem State.rowRegdata12_eq (s : State) (v : Byte) :
    s.rowRegdata12 v = { s with bankStart := BitVec.ofNat 5 (v.toNat % 32), redrawRequest := true } := by
  rw [State.rowRegdata12, low5_eq, State.requestRedraw]

theorem State.rowRegdata13_eq (s : State) (v : Byte) :
    s.rowRegdata13 v = { s with shadowBankStart := BitVec.ofNat 5 (v.toNat % 32), redrawRequest := true } := by
  rw [State.rowRegdata13, low5_eq, State.requestRedraw]

/-- Settles O7: the decoded row has the record of the port write, and each row's effect has its equation. -/
theorem outPerformsItsSelectedRow : Obligations.OutPerformsItsSelectedRow := by
  refine fun port data s => ⟨(exec_eq_exec_out (encode_decodePortWrite _ port data) s).symm, ?_⟩
  rw [exec_out_of rfl]
  generalize selectRow s.decodeCtx port = row
  cases row with
  | border => simp only [State.rowEffect, State.rowBorder_eq, State.deliver]
  | pagelo => simp only [State.rowEffect, State.rowPagelo_eq, State.deliver]
  | pagehi => simp only [State.rowEffect, State.rowPagehi_eq, State.deliver]
  | l2ctrl => simp only [State.rowEffect, State.rowL2ctrl_eq, State.deliver]
  | regdata12 => simp only [State.rowEffect, State.rowRegdata12_eq, State.deliver]
  | regdata13 => simp only [State.rowEffect, State.rowRegdata13_eq, State.deliver]
  | regsel | regdata14 | regdataNone | rsvd | none => rfl

/-! ### Ports: the paging ports, and the indirect registers -/

/-- The low paging port latches where the 1MB map has it (41_port_ops.md R142). -/
theorem State.portOut_pagelo (s : State) (v : Byte) :
    s.portOut portPagelo v = if s.cfg.map1mb then s.rowPagelo v else s := by
  rw [State.portOut, selectRow_pagelo]
  change s.rowEffect v (if s.cfg.map1mb then .pagelo else .none) = _
  split <;> rfl

/-- The high paging port latches and remaps where the 1MB map has it (41_port_ops.md R143). -/
theorem State.portOut_pagehi (s : State) (v : Byte) :
    s.portOut portPagehi v = if s.cfg.map1mb then s.rowPagehi v else s := by
  rw [State.portOut, selectRow_pagehi]
  change s.rowEffect v (if s.cfg.map1mb then .pagehi else .none) = _
  split <;> rfl

/-- The data port writes the register whose index is latched, if the block has one (41_port_ops.md R146 to R149). -/
theorem State.portOut_regdata (s : State) (v : Byte) : s.portOut portRegdata v =
    if s.regSelect = 0x12 then s.rowRegdata12 v
    else if s.regSelect = 0x13 then s.rowRegdata13 v
    else if s.regSelect = 0x14 ∧ s.cfg.hasL2Transp = true then s.rowRegdata14 v
    else s := by
  rw [State.portOut, selectRow_regdata, State.decodeCtx_eq]
  repeat' split
  all_goals rfl

theorem State.portOut_regdata12 {s : State} (h : s.regSelect = 0x12) (v : Byte) :
    s.portOut portRegdata v = s.rowRegdata12 v := by
  rw [State.portOut_regdata, if_pos h]

theorem State.portOut_regdata13 {s : State} (h : s.regSelect = 0x13) (v : Byte) :
    s.portOut portRegdata v = s.rowRegdata13 v := by
  rw [State.portOut_regdata, if_neg (by rw [h]; decide), if_pos h]

theorem State.portOut_regdata14 {s : State} (h : s.regSelect = 0x14 ∧ s.cfg.hasL2Transp = true) (v : Byte) :
    s.portOut portRegdata v = s.rowRegdata14 v := by
  rw [State.portOut_regdata, if_neg (by rw [h.1]; decide), if_neg (by rw [h.1]; decide), if_pos h]

theorem State.portOut_regdataNone {s : State} (h12 : s.regSelect ≠ 0x12) (h13 : s.regSelect ≠ 0x13)
    (h14 : ¬(s.regSelect = 0x14 ∧ s.cfg.hasL2Transp = true)) (v : Byte) : s.portOut portRegdata v = s := by
  rw [State.portOut_regdata, if_neg h12, if_neg h13, if_neg h14]

/-- Settles O22: both are writes to their port, and the high one leaves the other slots. -/
theorem pagingIsAppliedByTheHighWrite : Obligations.PagingIsAppliedByTheHighWrite := by
  intro v s
  have hlo : exec (.outPagelo v) s = exec (.out portPagelo v) s := exec_eq_exec_out rfl s
  have hhi : exec (.outPagehi v) s = exec (.out portPagehi v) s := exec_eq_exec_out rfl s
  rw [hlo, hhi, exec_out, exec_out, State.portOut_pagelo, State.portOut_pagehi]
  refine ⟨?_, _, rfl, fun hno => ?_, fun hmap => ?_⟩
  · split
    · rw [State.rowPagelo_eq, State.deliver]
    · rw [State.deliver]
  · rw [hno]; rfl
  · rw [if_pos hmap]
    refine ⟨?_, ?_, fun i hi => ?_⟩
    · rw [State.rowPagehi_eq, State.deliver]
    · exact (s.slotBank_rowPagehi v 3).trans (if_pos rfl)
    · exact (s.slotBank_rowPagehi v i).trans (if_neg hi)

theorem exec_writereg (r v : Byte) (s : State) :
    exec (.writereg r v) s = .next (((s.rowRegsel r).portOut portRegdata v).deliver .none) := by
  rw [exec, execWritereg, State.portOut_regsel]

/-- Settles O26: the second write finds the index the first has latched. -/
theorem writeregSelectsThenWrites : Obligations.WriteregSelectsThenWrites := by
  intro r v s
  refine ⟨?_, ?_⟩
  · change _ = exec (.out portRegdata v) ((s.portOut portRegsel r).deliver .none)
    rw [exec_writereg, exec_out, State.portOut_regsel, State.portOut_deliver, State.deliver_deliver]
  · rw [exec_writereg]
    by_cases h12 : r = 0x12
    · rw [State.portOut_regdata12 (s := s.rowRegsel r) h12, State.rowRegdata12_eq, if_pos h12]; rfl
    by_cases h13 : r = 0x13
    · rw [State.portOut_regdata13 (s := s.rowRegsel r) h13, State.rowRegdata13_eq, if_neg h12, if_pos h13]; rfl
    by_cases h14 : r = 0x14 ∧ s.cfg.hasL2Transp = true
    · rw [State.portOut_regdata14 (s := s.rowRegsel r) h14, if_neg h12, if_neg h13, if_pos h14]; rfl
    · rw [State.portOut_regdataNone (s := s.rowRegsel r) h12 h13 h14, if_neg h12, if_neg h13, if_neg h14]; rfl

/-- Settles O3: thirteen records written out, each decoded by evaluation. -/
theorem portNumbersDecodeToTheirRows : Obligations.PortNumbersDecodeToTheirRows := by
  unfold Obligations.PortNumbersDecodeToTheirRows
  decide

theorem exec_outBorder (hi v : Byte) (s : State) :
    exec (.outBorder hi v) s = .next ((s.rowBorder v).deliver .none) := rfl

theorem exec_outL2ctrl (v : Byte) (s : State) : exec (.outL2ctrl v) s = .next ((s.rowL2ctrl v).deliver .none) := rfl

/-- Settles O21: the equations of the rows, with each flag of the control byte as a remainder. -/
theorem directPortsWriteTheirRegisters : Obligations.DirectPortsWriteTheirRegisters := by
  intro hi v s
  refine ⟨?_, ?_, rfl⟩
  · rw [exec_outBorder, State.rowBorder_eq, State.deliver]
  · rw [exec_outL2ctrl, State.rowL2ctrl_eq, State.deliver, bit_eq_div, bit_eq_div, bit_eq_div]
    simp only [Nat.reducePow, Nat.div_one]

/-- Settles O23: each row is the write to the data port, which writes the register that is latched. -/
theorem regdataWritesTheLatchedRegister : Obligations.RegdataWritesTheLatchedRegister := by
  have hout (i : Instr) (v : Byte) (s : State) (h : encode i = encodePortWrite portRegdata v) :
      exec i s = .next ((s.portOut portRegdata v).deliver .none) := exec_eq_exec_out h s
  refine ⟨fun v s h => ?_, fun v s h => ?_, fun v s h => ?_⟩
  · rw [hout _ v s rfl, State.portOut_regdata12 h, State.rowRegdata12_eq, State.deliver]
  · rw [hout _ v s rfl, State.portOut_regdata13 h, State.rowRegdata13_eq, State.deliver]
  · rw [hout _ v s rfl]
    split
    next ht => rw [State.portOut_regdata14 ⟨h, ht⟩]; rfl
    next ht => rw [State.portOut_regdataNone (by rw [h]; decide) (by rw [h]; decide) fun h14 => ht h14.2]; rfl

/-- Settles O27: READREG performs the select write and delivers what IN delivers. -/
theorem readregSelectsAndReturnsZero : Obligations.ReadregSelectsAndReturnsZero := by
  intro r s
  have hexec : exec (.readreg r) s = .next ((s.rowRegsel r).deliver (.byte 0)) := by
    rw [exec, execReadreg, State.portOut_regsel, portIn]
  refine ⟨?_, hexec⟩
  change _ = exec (.inp portRegdata) ((s.portOut portRegsel r).deliver .none)
  rw [hexec, exec_inp, State.portOut_regsel, State.deliver_deliver, portIn]

end Sys2Proof.Machine

namespace Sys2Proof.Machine

/-! ### Memory: where an address goes, and what the byte writes leave -/

/-- The redirect bank as a number (20_memory.md R66, R68). -/
theorem State.redirectBank_eq (s : State) : s.redirectBank =
    ((if s.shadowEnable then s.shadowBankStart.toNat else s.bankStart.toNat) + s.subBank.toNat) % s.cfg.nbanks := by
  rw [State.redirectBank, State.layer2Start, apply_ite BitVec.toNat, wrapBank]

theorem State.redirects_iff {s : State} {a : Addr} :
    s.redirects a = true ↔ s.write0Enable = true ∧ a.toNat / 16384 = 1 := by
  rw [State.redirects, Bool.and_eq_true, beq_iff_eq, addrSlot_eq_redirectSlot]

/-- A captured write goes to the redirect bank (20_memory.md R66). -/
theorem State.translate_redirected {s : State} {a : Addr} (h : s.redirects a = true) :
    s.translate a true = ⟨s.redirectBank, addrOffset a⟩ := by
  rw [State.translate, h]; rfl

/-- Settles O9: the redirect's test and bank, and the fields of the address, in numbers. -/
theorem xlatReportsBankAndOffset : Obligations.XlatReportsBankAndOffset := by
  intro a w s
  have hcaptured : (w && s.redirects a) = true ↔ w = true ∧ s.write0Enable = true ∧ a.toNat / 16384 = 1 :=
    Bool.and_eq_true_iff.trans (and_congr_right fun _ => State.redirects_iff)
  rw [exec_xlat, State.translate, State.redirectBank_eq, addrSlot_eq, addrOffset_eq, State.deliver]
  by_cases h : w = true ∧ s.write0Enable = true ∧ a.toNat / 16384 = 1
  · rw [if_pos (hcaptured.2 h), if_pos h]
  · rw [if_neg (mt hcaptured.1 h), if_neg h]

/-- Settles O11: a byte write at its location, by `State.ramByte_writeByte`. -/
theorem wrbStoresOneByte : Obligations.WrbStoresOneByte :=
  fun a v s => ⟨_, exec_wrb a v s, rfl, s.ramByte_writeByte a v⟩

/-- Settles O13: the write goes to the redirect bank and the read to slot 1's, at one offset. -/
theorem redirectedWriteIsReadBackOnlyFromTheSameBank : Obligations.RedirectedWriteIsReadBackOnlyFromTheSameBank := by
  intro a v s h
  have hslot : addrSlot a = 1 := addrSlot_eq_redirectSlot.2 (State.redirects_iff.1 h).2
  refine ⟨_, exec_wrb a v s, ?_⟩
  rw [exec_rdb, State.readByte_deliver, State.readByte, State.ramByte_writeByte, State.translate_writeByte,
    State.translate_redirected h, State.translate_read, hslot, State.deliver]
  simp only [Loc.mk.injEq, and_true, eq_comm]

/-- The location of a direct access, in numbers (40_memory_ops.md R123). -/
theorem State.directLoc_eq (s : State) (b o : Nat) :
    s.directLoc b o = ⟨b % s.cfg.nbanks, BitVec.ofNat 14 (o % 16384)⟩ := by
  have hoffset : maskOffset o = BitVec.ofNat 14 (o % 16384) := BitVec.eq_of_toNat_eq (by simp [maskOffset])
  rw [State.directLoc, wrapBank, hoffset]

/-- Settles O14: both go to `State.directLoc`, whose bank and offset are those numbers. -/
theorem directAccessReachesTheNamedBank : Obligations.DirectAccessReachesTheNamedBank := by
  intro b o v s
  rw [← State.directLoc_eq]
  exact ⟨rfl, _, rfl, rfl, fun l => s.ramByte_setRamByte _ l v⟩

/-! ### Memory: words -/

/-- The address after `a`, modulo 65536 (20_memory.md R69). -/
theorem addr_succ_eq (a : Addr) : BitVec.ofNat 16 ((a.toNat + 1) % 65536) = a + 1 := by
  apply BitVec.eq_of_toNat_eq; simp

theorem low_byte_eq_ofNat (v : BitVec 16) : v.extractLsb' 0 8 = BitVec.ofNat 8 (v.toNat % 256) := by
  apply BitVec.eq_of_toNat_eq; simp

theorem high_byte_eq_ofNat (v : BitVec 16) : v.extractLsb' 8 8 = BitVec.ofNat 8 (v.toNat / 256) :=
  field_eq_ofNat v 8 8

/-- Two bytes as a word, in numbers. -/
theorem pair_eq_ofNat (hi lo : Byte) : (hi ++ lo : BitVec 16) = BitVec.ofNat 16 (hi.toNat * 256 + lo.toNat) := by
  have := hi.isLt
  have := lo.isLt
  apply BitVec.eq_of_toNat_eq
  rw [toNat_pair, BitVec.toNat_ofNat]
  omega

/-- Settles O15: the two bytes are those of the two reads. -/
theorem rdwJoinsTwoByteReads : Obligations.RdwJoinsTwoByteReads := by
  intro a s
  refine ⟨s.readByte a, s.readByte (a + 1), exec_rdb a s, ?_, ?_⟩
  · rw [addr_succ_eq]; exact exec_rdb (a + 1) s
  · rw [← pair_eq_ofNat]; rfl

/-- The two bytes of a word go to different locations: their offsets differ. -/
theorem State.translate_succ_ne (s : State) (a : Addr) (w : Bool) : s.translate (a + 1) w ≠ s.translate a w := by
  intro h
  have hoffset := congrArg Loc.offset h
  rw [State.translate_offset, State.translate_offset] at hoffset
  exact addrOffset_succ_ne a hoffset

/-- What a word write leaves at every location (40_memory_ops.md R126). -/
theorem State.ramByte_writeWord (s : State) (a : Addr) (v : BitVec 16) (l : Loc) :
    (s.writeWord a v).ramByte l = if l = s.translate a true then v.extractLsb' 0 8
      else if l = s.translate (a + 1) true then v.extractLsb' 8 8 else s.ramByte l := by
  rw [State.writeWord, State.ramByte_writeByte, State.ramByte_writeByte, State.translate_writeByte]
  by_cases h : l = s.translate a true
  · rw [if_pos h, if_pos h, if_neg fun h' => s.translate_succ_ne a true (h'.symm.trans h)]
  · rw [if_neg h, if_neg h]

theorem exec_wrw (a : Addr) (v : BitVec 16) (s : State) :
    exec (.wrw a v) s = .next ((s.writeWord a v).deliver .none) := rfl

/-- Settles O16: the run of the two writes computes to the word write, whose two locations differ in the offset. -/
theorem wrwIsTwoByteWrites : Obligations.WrwIsTwoByteWrites := by
  intro a v s
  rw [addr_succ_eq, ← low_byte_eq_ofNat, ← high_byte_eq_ofNat]
  exact ⟨_, exec_wrw a v s, rfl, rfl, (s.translate_succ_ne a true).symm, s.ramByte_writeWord a v⟩

/-- Settles O17: without the redirect both reads look where the bytes went. -/
theorem wordWrittenIsTheWordRead : Obligations.WordWrittenIsTheWordRead := by
  intro a v s hlo hhi
  have hread_lo : (s.writeWord a v).readByte a = v.extractLsb' 0 8 := by
    rw [State.readByte, State.ramByte_writeWord]
    exact if_pos (State.translate_write hlo).symm
  have hread_hi : (s.writeWord a v).readByte (a + 1) = v.extractLsb' 8 8 := by
    rw [State.readByte, State.ramByte_writeWord]
    exact (if_neg (by rw [State.translate_write hlo]; exact s.translate_succ_ne a false)).trans
      (if_pos (State.translate_write hhi).symm)
  have hword : ((s.writeWord a v).deliver .none).readWord a = v := by
    rw [State.readWord, State.readByte_deliver, State.readByte_deliver, hread_lo, hread_hi, pair_of_word]
  refine ⟨_, exec_wrw a v s, ?_⟩
  rw [exec, execRdw, hword, State.deliver]

/-! ### Memory: bulk writes -/

/-- The address of byte `i` of a bulk write. -/
theorem addr_add_eq (a : Addr) (i : Nat) : BitVec.ofNat 16 (a.toNat + i) = a + BitVec.ofNat 16 i := by
  apply BitVec.eq_of_toNat_eq; simp

/-- Settles O18: `State.writeBytes_other` and `State.writeBytes_last`, at the addresses counted from the first. -/
theorem bulkwrWritesEachByteThroughTranslation : Obligations.BulkwrWritesEachByteThroughTranslation := by
  intro a bs s hfit
  refine ⟨_, exec_bulkwr_fits s hfit, ?_, fun l h => ?_, fun i hi h => ?_⟩
  · rw [State.writeBytes_eq]; rfl
  · simp only [addr_add_eq] at h
    exact s.writeBytes_other a bs l h
  · simp only [addr_add_eq] at h ⊢
    exact s.writeBytes_last a bs i hi h

/-- Settles O19: `State.writeBankBytes_other` and `State.writeBankBytes_at`, in the wrapped bank. -/
theorem bulkwrbkWritesOnePage : Obligations.BulkwrbkWritesOnePage := by
  intro b o bs s hfit
  refine ⟨_, exec_bulkwrbk_fits b s hfit, ?_, fun l h => ?_, fun i hi => ?_⟩
  · rw [State.writeBankBytes_eq]; rfl
  · exact s.writeBankBytes_other _ o bs l h
  · exact s.writeBankBytes_at _ o bs hfit i hi

end Sys2Proof.Machine

namespace Sys2Proof.Machine

/-! ### Video: the addresses of the base layer as numbers -/

/-- A concatenation is its parts, weighted. -/
theorem toNat_append_add {m n : Nat} (x : BitVec m) (y : BitVec n) : (x ++ y).toNat = x.toNat * 2 ^ n + y.toNat := by
  rw [BitVec.toNat_append, ← Nat.shiftLeft_add_eq_or_of_lt y.isLt, Nat.shiftLeft_eq]

/-- The row part of the bitmap address: its three bit fields, above the five bits of the column. -/
theorem pixelAddress_row_part (r : BitVec 8) :
    ((r.toNat &&& 0xC0) <<< 5) ||| ((r.toNat &&& 0x07) <<< 8) ||| ((r.toNat &&& 0x38) <<< 2) =
      (r.extractLsb' 6 2 ++ r.extractLsb' 0 3 ++ r.extractLsb' 3 3).toNat <<< 5 := by
  revert r; decide

theorem attrAddress_row_part (r : BitVec 8) : (r.toNat &&& 0xF8) <<< 2 = r.toNat / 8 * 32 := by
  revert r; decide

theorem pixelAddress_fields (r c : BitVec 8) : pixelAddress r.toNat c.toNat =
    (r.extractLsb' 6 2 ++ r.extractLsb' 0 3 ++ r.extractLsb' 3 3 ++ c.extractLsb' 3 5).toNat := by
  rw [pixelAddress, pixelAddress_row_part, BitVec.toNat_append _ (c.extractLsb' 3 5), toNat_field c,
    Nat.shiftRight_eq_div_pow, Nat.mod_eq_of_lt (b := 2 ^ 5) (by have := c.isLt; omega)]

theorem attrAddress_fields (r c : BitVec 8) :
    attrAddress r.toNat c.toNat = 0x1800 + (r.extractLsb' 3 5 ++ c.extractLsb' 3 5).toNat := by
  have := r.isLt
  have := c.isLt
  rw [attrAddress, attrAddress_row_part, toNat_append_add, toNat_field, toNat_field, Nat.shiftRight_eq_div_pow]
  omega

/-- The row part permutes the low six bits of the row, so it stays below 192 with it. -/
theorem pixelAddress_row_part_lt (r : BitVec 8) (hr : r.toNat < 192) :
    (r.extractLsb' 6 2 ++ r.extractLsb' 0 3 ++ r.extractLsb' 3 3).toNat < 192 := by
  revert r; decide

/-- Settles O28: the formulas are the fields, and a row of the screen bounds the row part of each. -/
theorem baseLayerAddressesAreBitFields : Obligations.BaseLayerAddressesAreBitFields := by
  refine fun r c => ⟨pixelAddress_fields r c, attrAddress_fields r c, fun hr => ?_⟩
  have hrow := pixelAddress_row_part_lt r hr
  have hcol := (c.extractLsb' 3 5).isLt
  constructor
  · rw [pixelAddress_fields, toNat_append_add _ (c.extractLsb' 3 5)]
    omega
  · rw [attrAddress_fields, toNat_append_add, toNat_field r]
    omega

/-! ### Video: the base layer -/

@[simp] theorem State.fbPixel_deliver (s : State) (r : Result) (row col : Nat) :
    (s.deliver r).fbPixel row col = s.fbPixel row col := rfl

theorem inScreen_offset {c : Config} {x y : Nat} (hx : x < 256) (hy : y < 192) :
    inScreen c (y + c.borderH) (x + c.borderW) = true :=
  inScreen_iff.2 ⟨by omega, by omega, by omega, by omega⟩

/-- The border colour outside the visible area (42_video_ops.md R176). -/
theorem State.basePixel_border {s : State} {row col : Nat}
    (h : ¬(s.cfg.borderH ≤ row ∧ row < s.cfg.borderH + 192 ∧ s.cfg.borderW ≤ col ∧ col < s.cfg.borderW + 256)) :
    s.basePixel row col = s.borderPixel := by
  rw [State.basePixel, if_neg fun hin => h (inScreen_iff.1 hin)]

theorem State.basePixel_screen (s : State) {r c : Nat} (hr : r < 192) (hc : c < 256) :
    s.basePixel (r + s.cfg.borderH) (c + s.cfg.borderW) = s.screenPixel r c := by
  rw [State.basePixel, if_pos (inScreen_offset hc hr), Nat.add_sub_cancel, Nat.add_sub_cancel]

theorem baseColour_getElem? (colours : Vector Rgb 16) (i : BitVec 4) :
    colours[i.toNat]? = some (colours[i.toNat]'i.isLt) :=
  Vector.getElem?_eq_getElem i.isLt

/-- The colour of a screen pixel, looked up by number (42_video_ops.md R173, R174). -/
theorem State.screenPixel_eq (s : State) (r c : Nat) : some (s.screenPixel r c) =
    let attr := s.baseByte (attrAddress r c)
    s.cfg.baseColour[if (s.baseByte (pixelAddress r c)).getLsbD (7 - c % 8) != (attr.getLsbD 7 && s.flashToggle) then
      attr.toNat % 8 + attr.toNat / 64 % 2 * 8 else attr.toNat / 8 % 8]? := by
  dsimp only
  rw [← attrInk_toNat, ← attrPaper_toNat, ← cellIndex_toNat, ← bitmapBit_eq, baseColour_getElem?]
  rfl

theorem exec_renderbase (s : State) : exec .renderbase s = .next (s.renderBase.deliver .none) := rfl

/-- Settles O29: `State.renderBase_fbPixel` at a position outside, on the border and on the screen. -/
theorem renderbaseDrawsEveryPixel : Obligations.RenderbaseDrawsEveryPixel := by
  intro s
  refine ⟨_, exec_renderbase s, rfl, fun row col h => ?_, fun row col hrow hcol h => ?_, fun r c hr hc => ?_⟩
  · rw [State.fbPixel_deliver, State.renderBase_fbPixel, if_neg h]
  · rw [State.fbPixel_deliver, State.renderBase_fbPixel, if_pos ⟨hrow, hcol⟩, State.basePixel_border h,
      State.borderPixel]
  · rw [State.fbPixel_deliver, State.renderBase_fbPixel, if_pos ⟨by omega, by omega⟩, State.basePixel_screen s hr hc]
    exact s.screenPixel_eq r c

/-! ### Video: Layer2 -/

theorem canvasOffset_eq {x : Nat} (hx : x < 256) (y : Nat) : canvasOffset x y = y % 64 * 256 + x := by
  have hmask : y &&& 63 = y % 64 := Nat.and_two_pow_sub_one_eq_mod y 6
  rw [canvasOffset, ← Nat.shiftLeft_add_eq_or_of_lt (b := x) (i := 8) hx, Nat.shiftLeft_eq, hmask]

theorem State.canvasByte_eq (s : State) {x : Nat} (hx : x < 256) (y : Nat) : s.canvasByte x y = s.ramByte
    ⟨((if s.shadowEnable then s.shadowBankStart.toNat else s.bankStart.toNat) + y / 64) % s.cfg.nbanks,
      BitVec.ofNat 14 (y % 64 * 256 + x)⟩ := by
  rw [State.canvasByte, canvasOffset_eq hx, State.layer2Start, apply_ite BitVec.toNat, wrapBank,
    Nat.shiftRight_eq_div_pow]

/-- Layer2 reaches the visible area alone (42_video_ops.md R177). -/
theorem State.overlayPixel_border {s : State} {row col : Nat}
    (h : ¬(s.cfg.borderH ≤ row ∧ row < s.cfg.borderH + 192 ∧ s.cfg.borderW ≤ col ∧ col < s.cfg.borderW + 256)) :
    s.overlayPixel row col = id := by
  funext px
  rw [State.overlayPixel, if_neg fun hin => h (inScreen_iff.1 hin), id]

/-- What an index byte of the canvas leaves where the frame held `px` (42_video_ops.md R177). -/
def State.overlayIndex (s : State) (index : Byte) (px : Rgb) : Rgb :=
  if index = s.transparentIndex then px else rgb332 (s.palette[index.toNat]'index.isLt)

theorem State.overlayPixel_screen (s : State) {x y : Nat} (hx : x < 256) (hy : y < 192) :
    s.overlayPixel (y + s.cfg.borderH) (x + s.cfg.borderW) = s.overlayIndex (s.canvasByte x y) := by
  funext px
  have hpixel : s.overlayPixel (y + s.cfg.borderH) (x + s.cfg.borderW) px =
      s.overlayIndex (s.canvasByte (x + s.cfg.borderW - s.cfg.borderW) (y + s.cfg.borderH - s.cfg.borderH)) px :=
    if_pos (inScreen_offset hx hy)
  rw [hpixel, Nat.add_sub_cancel, Nat.add_sub_cancel]

theorem State.renderLayer2_disabled {s : State} (h : s.enable = false) : s.renderLayer2 = s := by
  rw [State.renderLayer2, h]; rfl

theorem exec_renderlayer2 (s : State) : exec .renderlayer2 s = .next (s.renderLayer2.deliver .none) := rfl

/-- Settles O30: `State.renderLayer2_fbPixel` on the border and on the screen. -/
theorem renderlayer2OverlaysOpaquePixels : Obligations.Renderlayer2OverlaysOpaquePixels := by
  intro s
  refine ⟨_, exec_renderlayer2 s, ?_, fun hoff => ?_, fun row col h => ?_, fun x y hx hy hon => ?_⟩
  · rw [State.renderLayer2_eq]; rfl
  · rw [State.renderLayer2_disabled hoff]; rfl
  · rw [State.fbPixel_deliver, State.renderLayer2_fbPixel, State.overlayPixel_border h, Option.map_id, id, ite_self]
  · rw [State.fbPixel_deliver, State.renderLayer2_fbPixel, if_pos hon]
    rw [State.overlayPixel_screen s hx hy, State.canvasByte_eq s hx y]
    rfl

/-! ### Video: composition -/

/-- Layer2 does not read the result of the operation before it. -/
theorem State.renderLayer2_deliver (s : State) (r : Result) :
    (s.deliver r).renderLayer2 = s.renderLayer2.deliver r := by
  cases h : s.enable with
  | false => rw [State.renderLayer2_disabled (s := s) h, State.renderLayer2_disabled (s := s.deliver r) h]
  | true => rw [State.renderLayer2, State.renderLayer2, if_pos h, if_pos (c := (s.deliver r).enable = true) h]; rfl

/-- With Layer2 disabled its render changes nothing, so COMPOSE is both renders (42_video_ops.md R177, R179). -/
theorem exec_compose (s : State) : exec .compose s = .next (s.renderBase.renderLayer2.deliver .none) := by
  rw [exec, execCompose]
  split
  · rfl
  next h => rw [State.renderLayer2_disabled (s := s.renderBase) (Bool.eq_false_iff.2 h)]

/-- Settles O32: with Layer2 disabled the second render is the identity. -/
theorem composeIsBaseThenLayer2 : Obligations.ComposeIsBaseThenLayer2 := by
  intro s
  refine ⟨_, exec_compose s, ?_, ?_⟩
  · rw [State.renderLayer2_eq]; rfl
  · split
    · change exec .renderlayer2 (s.renderBase.deliver .none) = _
      rw [exec_renderlayer2, State.renderLayer2_deliver, State.deliver_deliver]
    next h => rw [State.renderLayer2_disabled (s := s.renderBase) (Bool.eq_false_iff.2 h)]; rfl

theorem State.renderBase_fb_congr {s t : State} (hcfg : t.cfg = s.cfg) (hram : t.ram = s.ram)
    (hborder : t.border = s.border) (hflash : t.flashToggle = s.flashToggle) : t.renderBase.fb = s.renderBase.fb := by
  simp only [State.renderBase, hcfg, State.basePixel_congr hcfg hram hborder hflash]

theorem State.overlayPixel_congr {s t : State} (hcfg : t.cfg = s.cfg) (hram : t.ram = s.ram)
    (hshadow : t.shadowEnable = s.shadowEnable) (hstart : t.bankStart = s.bankStart)
    (hsstart : t.shadowBankStart = s.shadowBankStart) (htransp : t.transparentIndex = s.transparentIndex)
    (hpal : t.palette = s.palette) : t.overlayPixel = s.overlayPixel := by
  obtain ⟨⟩ := s
  obtain ⟨⟩ := t
  subst hcfg hram hshadow hstart hsstart htransp hpal
  rfl

theorem State.renderLayer2_fb (s : State) : s.renderLayer2.fb =
    if s.enable then s.fb.mapIdx fun row pixels => pixels.mapIdx (s.overlayPixel row) else s.fb := by
  rw [State.renderLayer2]
  split <;> rfl

/-- The composed frame reads RAM, the border, the Layer2 registers, the palette, the flash toggle and the parameters
alone: RENDERBASE has written every element before Layer2 keeps one. -/
theorem State.composed_fb_congr {s t : State} (hcfg : t.cfg = s.cfg) (hram : t.ram = s.ram)
    (hborder : t.border = s.border) (hshadow : t.shadowEnable = s.shadowEnable) (henable : t.enable = s.enable) (hstart : t.bankStart = s.bankStart)
    (hsstart : t.shadowBankStart = s.shadowBankStart) (htransp : t.transparentIndex = s.transparentIndex)
    (hpal : t.palette = s.palette) (hflash : t.flashToggle = s.flashToggle) :
    t.renderBase.renderLayer2.fb = s.renderBase.renderLayer2.fb := by
  have henable' : t.renderBase.enable = s.renderBase.enable := henable
  have hoverlay : t.renderBase.overlayPixel = s.renderBase.overlayPixel :=
    State.overlayPixel_congr hcfg hram hshadow hstart hsstart htransp hpal
  rw [State.renderLayer2_fb, State.renderLayer2_fb, henable', hoverlay,
    State.renderBase_fb_congr hcfg hram hborder hflash]

/-- Settles O33: the two states agree in everything the composed frame reads. -/
theorem composeIgnoresTranslationAndEarlierFrames : Obligations.ComposeIgnoresTranslationAndEarlierFrames := by
  intro s t u v h hu hv
  rw [exec_compose] at hu hv
  cases hu
  cases hv
  apply State.composed_fb_congr <;> rw [h]

/-! ### Video: the flash tick, the redraw request, the colours -/

theorem exec_tick (s : State) : exec .tick s = .next (s.flashTick.deliver .none) := rfl

/-- Settles O34: the two cases of `State.flashTick_eq`. -/
theorem tickCountsAndInvertsEverySixteenth : Obligations.TickCountsAndInvertsEverySixteenth := by
  intro s
  rw [exec_tick, State.flashTick_eq]
  split <;> rfl

theorem State.flashTick_inverts {s : State} (h : s.tickCounter.toNat = 15) :
    s.flashTick = { s with tickCounter := 0, flashToggle := !s.flashToggle, redrawRequest := true } := by
  rw [State.flashTick_eq, if_pos h]

theorem State.flashTick_counts {s : State} (h : s.tickCounter.toNat ≠ 15) :
    s.flashTick = { s with tickCounter := BitVec.ofNat 4 (s.tickCounter.toNat + 1) } := by
  rw [State.flashTick_eq, if_neg h]

/-- Settles O35, by induction on the number of ticks: the first one either counts, and the rest start one further, or
inverts and the at most 15 others count from 0. -/
theorem sixteenTicksInvertTheToggleOnce : Obligations.SixteenTicksInvertTheToggleOnce := by
  intro s k
  induction k generalizing s with
  | zero =>
    have := s.tickCounter.isLt
    refine fun _ => ⟨s, rfl, ?_, ?_, ?_⟩
    · rw [if_pos (by omega)]
    · omega
    · rw [decide_eq_false (by omega), Bool.or_false]
  | succ k ih =>
    intro hk
    obtain ⟨t, hrun, htoggle, hcounter, hredraw⟩ := ih (s.flashTick.deliver .none) (by omega)
    refine ⟨t, hrun, ?_⟩
    rw [htoggle, hcounter, hredraw]
    simp only [State.deliver_flashToggle, State.deliver_tickCounter, State.deliver_redrawRequest]
    by_cases h15 : s.tickCounter.toNat = 15
    · rw [State.flashTick_inverts h15]
      simp only [h15, BitVec.ofNat_eq_ofNat, BitVec.toNat_ofNat]
      refine ⟨?_, ?_, ?_⟩
      · rw [if_pos (by omega), if_neg (by omega)]
      · omega
      · rw [decide_eq_true (p := 16 ≤ 15 + (k + 1)) (by omega), Bool.true_or, Bool.or_true]
    · have hlt := s.tickCounter.isLt
      have hnext : (BitVec.ofNat 4 (s.tickCounter.toNat + 1)).toNat + k = s.tickCounter.toNat + (k + 1) := by
        rw [BitVec.toNat_ofNat]; omega
      rw [State.flashTick_counts h15]
      simp only [hnext, and_self]

/-- Settles O36: clearing and delivery replace one field each. -/
theorem ackredrawClearsTheRequest : Obligations.AckredrawClearsTheRequest := fun _ => rfl

theorem exp3_getElem? (i : BitVec 3) : some (exp3 i) = [(0 : Byte), 36, 73, 109, 146, 182, 219, 255][i.toNat]? := by
  revert i; decide

theorem exp2_getElem? (i : BitVec 2) : some (exp2 i) = [(0 : Byte), 85, 170, 255][i.toNat]? := by
  revert i; decide

theorem packPixel_toNat (p : Rgb) : (packPixel p).toNat = p.r.toNat * 65536 + p.g.toNat * 256 + p.b.toNat := by
  simp only [packPixel, toNat_append_add, BitVec.ofNat_eq_ofNat, BitVec.toNat_ofNat]
  omega

/-- Settles O31: the expansion tables at the numbers of the three fields. -/
theorem paletteByteExpandsByItsFields : Obligations.PaletteByteExpandsByItsFields := by
  intro c
  have hc := c.isLt
  have hr : (c.extractLsb' 5 3).toNat = c.toNat / 32 := by rw [toNat_field]; omega
  have hg : (c.extractLsb' 2 3).toNat = c.toNat / 4 % 8 := toNat_field c 2 3
  have hb : (c.extractLsb' 0 2).toNat = c.toNat % 4 := by rw [toNat_field]; omega
  refine ⟨?_, ?_, ?_, ?_⟩
  · rw [← hr]; exact exp3_getElem? _
  · rw [← hg]; exact exp3_getElem? _
  · rw [← hb]; exact exp2_getElem? _
  · rw [packPixel_toNat]
    have := (rgb332 c).r.isLt
    have := (rgb332 c).g.isLt
    have := (rgb332 c).b.isLt
    omega

end Sys2Proof.Machine

namespace Sys2Proof.Machine

/-! ### Checksums: the shift register is linear, so its step may take a byte from a table -/

theorem crcShift_xor (x y : BitVec 32) : crcShift (x ^^^ y) = crcShift x ^^^ crcShift y := by
  unfold crcShift
  rw [BitVec.getLsbD_xor, BitVec.ushiftRight_xor_distrib]
  generalize x >>> 1 = x'
  generalize y >>> 1 = y'
  cases x.getLsbD 0 <;> cases y.getLsbD 0
  · rfl
  · exact BitVec.xor_assoc x' y' crcPoly
  · change (x' ^^^ y') ^^^ crcPoly = (x' ^^^ crcPoly) ^^^ y'
    ac_rfl
  · change x' ^^^ y' = (x' ^^^ crcPoly) ^^^ (y' ^^^ crcPoly)
    rw [BitVec.xor_comm y', ← BitVec.xor_assoc, BitVec.xor_assoc x', BitVec.xor_self, BitVec.xor_zero]

theorem crcShift8_xor (x y : BitVec 32) : crcShift8 (x ^^^ y) = crcShift8 x ^^^ crcShift8 y := by
  simp only [crcShift8, crcShift_xor]

/-- Eight shifts of a register whose low byte is clear meet no polynomial. -/
theorem crcShift8_of_low_clear {y : BitVec 32} (h : ∀ j < 8, y.getLsbD j = false) : crcShift8 y = y >>> 8 := by
  have hshift (j : Nat) (hj : j < 8) : crcShift (y >>> j) = y >>> (j + 1) := by
    have hbit : (y >>> j).getLsbD 0 = false := by rw [BitVec.getLsbD_ushiftRight, Nat.add_zero, h j hj]
    rw [crcShift, hbit, BitVec.shiftRight_add]
    rfl
  have hfirst : crcShift y = y >>> 1 := by simpa using hshift 0 (by decide)
  rw [crcShift8, hfirst, hshift 1 (by decide), hshift 2 (by decide), hshift 3 (by decide), hshift 4 (by decide),
    hshift 5 (by decide), hshift 6 (by decide), hshift 7 (by decide)]

/-- A register is its low byte and the rest. -/
theorem eq_low_xor_high (x : BitVec 32) : x = (x.extractLsb' 0 8).setWidth 32 ^^^ ((x >>> 8) <<< 8) := by
  apply BitVec.eq_of_getLsbD_eq
  intro i hi
  simp only [BitVec.getLsbD_xor, BitVec.getLsbD_setWidth, BitVec.getLsbD_extractLsb', BitVec.getLsbD_shiftLeft,
    BitVec.getLsbD_ushiftRight, hi, decide_true, Bool.true_and, Nat.zero_add]
  by_cases h8 : i < 8
  · simp [h8]
  · simp [h8, Nat.add_sub_cancel' (Nat.le_of_not_lt h8)]

/-- The table-driven step is the serial one (43_checksum_ops.md R201, R203). -/
theorem crcStep_eq_crcShift8 (c : BitVec 32) (b : Byte) : crcStep c b = crcShift8 (c ^^^ b.setWidth 32) := by
  have hbyte : (b.setWidth 32) >>> 8 = 0#32 := by
    apply BitVec.eq_of_toNat_eq
    have := b.isLt
    simp only [BitVec.toNat_ushiftRight, BitVec.toNat_setWidth, Nat.shiftRight_eq_div_pow, BitVec.toNat_ofNat]
    omega
  generalize hx : c ^^^ b.setWidth 32 = x
  have hhigh : x >>> 8 = c >>> 8 := by
    rw [← hx, BitVec.ushiftRight_xor_distrib, hbyte, BitVec.xor_zero]
  have hclear : ∀ j < 8, ((x >>> 8) <<< 8).getLsbD j = false := fun j hj => by
    rw [BitVec.getLsbD_shiftLeft]; simp [hj]
  have hback : ((x >>> 8) <<< 8) >>> 8 = x >>> 8 := by
    apply BitVec.eq_of_toNat_eq
    have := x.isLt
    simp only [BitVec.toNat_ushiftRight, BitVec.toNat_shiftLeft, Nat.shiftRight_eq_div_pow, Nat.shiftLeft_eq]
    omega
  calc crcStep c b = crcShift8 ((x.extractLsb' 0 8).setWidth 32) ^^^ (x >>> 8) := by
        rw [crcStep, hx, crcTable, hhigh]
    _ = crcShift8 ((x.extractLsb' 0 8).setWidth 32) ^^^ crcShift8 ((x >>> 8) <<< 8) := by
        rw [crcShift8_of_low_clear hclear, hback]
    _ = crcShift8 x := by rw [← crcShift8_xor, ← eq_low_xor_high]

/-- Settles O38: `crcStep_eq_crcShift8`, whose shifts are those of the statement. -/
theorem crcByteIsTheSerialShiftRegister : Obligations.CrcByteIsTheSerialShiftRegister := by
  intro b s
  rw [exec, execCrcByte, crcStep_eq_crcShift8]
  rfl

/-! ### Checksums: a whole sequence is the run of its steps -/

/-- The CRC register after a run of bytes. -/
theorem execAll_crcBytes (bs : List Byte) (is : List Instr) (s : State) :
    ∃ t, execAll (bs.map .crcByte ++ is) s = execAll is t ∧ t.crc = bs.foldl crcStep s.crc := by
  induction bs generalizing s with
  | nil => exact ⟨s, rfl, rfl⟩
  | cons b bs ih => exact ih ({ s with crc := crcStep s.crc b }.deliver .none)

/-- The Adler sums after a run of bytes. -/
theorem execAll_adlerBytes (bs : List Byte) (is : List Instr) (s : State) :
    ∃ t, execAll (bs.map .adlerByte ++ is) s = execAll is t ∧ t.adler = bs.foldl adlerStep s.adler := by
  induction bs generalizing s with
  | nil => exact ⟨s, rfl, rfl⟩
  | cons b bs ih => exact ih ((s.setAdler (adlerStep s.adler b)).deliver .none)

/-- Settles O37: the complement of the seed is 0. -/
theorem crcInitAndFinal : Obligations.CrcInitAndFinal := fun _ =>
  ⟨rfl, rfl, _, rfl, congrArg Result.sum (BitVec.xor_self)⟩

/-- Settles O39: CRC_FINAL complements what the bytes leave; the check values are those of S7. -/
theorem crc32IsTheRunOfItsSteps : Obligations.Crc32IsTheRunOfItsSteps := by
  intro bs s
  obtain ⟨t, hrun, hcrc⟩ := execAll_crcBytes bs [.crcFinal] ({ s with crc := crcOnes }.deliver .none)
  refine ⟨crc32 bs, t.deliver (.sum (t.crc ^^^ crcOnes)), rfl, hrun, ?_, ?_, ?_⟩
  · rw [State.deliver_result, hcrc]; rfl
  · rintro rfl; rfl
  · rintro rfl; decide +kernel

/-- Settles O40: the steps compute to the sums; the delivered word is the two sums side by side. -/
theorem adlerSteps : Obligations.AdlerSteps := by
  refine fun b s => ⟨rfl, rfl, ?_⟩
  have hcombine : s.s2 ++ s.s1 = BitVec.ofNat 32 (s.s2.toNat * 65536 + s.s1.toNat) := by
    have := s.s1.isLt
    have := s.s2.isLt
    apply BitVec.eq_of_toNat_eq
    rw [toNat_append_add, BitVec.toNat_ofNat]
    omega
  rw [← hcombine]
  rfl

/-- The step as congruences: the new first sum, and the second sum with the new first added. -/
theorem adlerStep_modEq (a : AdlerSums) (b : Byte) :
    (adlerStep a b).s1.toNat ≡ a.s1.toNat + b.toNat [MOD 65521] ∧
    (adlerStep a b).s2.toNat ≡ a.s2.toNat + (a.s1.toNat + b.toNat) [MOD 65521] := by
  simp only [adlerStep, adlerMod, BitVec.toNat_ofNat, Nat.ModEq]
  omega

/-- Both sums in closed form, from any sums, modulo 65521 (43_checksum_ops.md R208). -/
theorem adler_fold_modEq (bs : List Byte) (a : AdlerSums) :
    (bs.foldl adlerStep a).s1.toNat ≡ a.s1.toNat + (bs.map BitVec.toNat).sum [MOD 65521] ∧
    (bs.foldl adlerStep a).s2.toNat ≡
      a.s2.toNat + bs.length * a.s1.toNat + (bs.mapIdx fun i b => (bs.length - i) * b.toNat).sum [MOD 65521] := by
  induction bs generalizing a with
  | nil => exact ⟨rfl, by simp [Nat.ModEq]⟩
  | cons b bs ih =>
    obtain ⟨h1, h2⟩ := adlerStep_modEq a b
    obtain ⟨ih1, ih2⟩ := ih (adlerStep a b)
    simp only [List.foldl_cons, List.map_cons, List.sum_cons, List.length_cons, List.mapIdx_cons, Nat.sub_zero,
      Nat.add_sub_add_right]
    generalize (bs.mapIdx fun i b => (bs.length - i) * b.toNat).sum = weighted at ih2 ⊢
    constructor
    · refine ih1.trans ((h1.add_right _).trans ?_)
      rw [Nat.add_assoc]
    · refine ih2.trans (((h2.add (h1.mul_left _)).add_right _).trans ?_)
      ring_nf
      rfl

/-- Sums below 65521 stay there. -/
theorem adler_fold_lt (bs : List Byte) {a : AdlerSums} (h : a.s1.toNat < 65521 ∧ a.s2.toNat < 65521) :
    (bs.foldl adlerStep a).s1.toNat < 65521 ∧ (bs.foldl adlerStep a).s2.toNat < 65521 := by
  induction bs generalizing a with
  | nil => exact h
  | cons b bs ih => exact ih (adlerStep_lt a b)

/-- Settles O41: the run gives the fold of the step from the seed, whose sums have the closed form. -/
theorem adler32IsTheTwoSums : Obligations.Adler32IsTheTwoSums := by
  intro bs s
  obtain ⟨t, hrun, hsums⟩ := execAll_adlerBytes bs [.adlerFinal] ((s.setAdler adlerSeed).deliver .none)
  obtain ⟨hmod1, hmod2⟩ := adler_fold_modEq bs adlerSeed
  obtain ⟨hlt1, hlt2⟩ := adler_fold_lt bs (a := adlerSeed) (by decide)
  have hvalue : (adler32 bs).toNat =
      (bs.foldl adlerStep adlerSeed).s2.toNat * 65536 + (bs.foldl adlerStep adlerSeed).s1.toNat :=
    toNat_append_add _ _
  have h1 : (bs.foldl adlerStep adlerSeed).s1.toNat = (1 + (bs.map BitVec.toNat).sum) % 65521 :=
    (Nat.mod_eq_of_lt hlt1).symm.trans hmod1
  have hmod2' : (bs.foldl adlerStep adlerSeed).s2.toNat ≡
      bs.length + (bs.mapIdx fun i b => (bs.length - i) * b.toNat).sum [MOD 65521] := by simpa [adlerSeed] using hmod2
  have h2 : (bs.foldl adlerStep adlerSeed).s2.toNat =
      (bs.length + (bs.mapIdx fun i b => (bs.length - i) * b.toNat).sum) % 65521 :=
    (Nat.mod_eq_of_lt hlt2).symm.trans hmod2'
  refine ⟨adler32 bs, t.deliver (.sum (adlerCombine t.adler)), rfl, hrun, ?_, ?_, ?_⟩
  · rw [State.deliver_result, hsums]; rfl
  · rw [← h1, hvalue]; omega
  · rw [← h2, hvalue]; omega

end Sys2Proof.Machine

namespace Sys2Proof.Machine

/-! ### Stored blocks: the layout of a block and the greedy split of a stream -/

theorem le16_eq (v : BitVec 16) : le16 v = [BitVec.ofNat 8 (v.toNat % 256), BitVec.ofNat 8 (v.toNat / 256)] := by
  rw [le16, low_byte_eq_ofNat, high_byte_eq_ofNat]

/-- The complement of a length, in numbers. -/
theorem complement_toNat (v : BitVec 16) : (v ^^^ 0xFFFF).toNat = 65535 - v.toNat := by
  have hnot : v ^^^ 0xFFFF = ~~~v := BitVec.xor_allOnes
  rw [hnot, BitVec.toNat_not]

/-- The header of a block with the length in numbers (44_deflate_zlib_ops.md R220). -/
theorem storedBlock_eq (f : Bool) {data : List Byte} (h : data.length ≤ 65535) : storedBlock f data =
    (if f then 1 else 0) :: BitVec.ofNat 8 (data.length % 256) :: BitVec.ofNat 8 (data.length / 256) ::
      BitVec.ofNat 8 ((65535 - data.length) % 256) :: BitVec.ofNat 8 ((65535 - data.length) / 256) :: data := by
  have hlen : (BitVec.ofNat 16 data.length).toNat = data.length := by rw [BitVec.toNat_ofNat]; omega
  rw [storedBlock, le16_eq, le16_eq, complement_toNat, hlen]
  rfl

theorem storedBlock_length (f : Bool) (data : List Byte) : (storedBlock f data).length = data.length + 5 := by
  simp only [storedBlock, le16, List.length_cons, List.length_append, List.length_nil]
  omega

theorem exec_storedBlock {data : List Byte} (f : Bool) (s : State) (h : data.length ≤ 65535) :
    exec (.storedBlock f data) s = .next (s.deliver (.bytes (storedBlock f data))) :=
  if_pos (decide_eq_true h)

/-- Settles O42: `storedBlock_eq` up to 65535 bytes, and the range check beyond. -/
theorem storedBlockLayout : Obligations.StoredBlockLayout := by
  refine fun f data s => ⟨fun h => ?_, fun h => ?_⟩
  · rw [exec_storedBlock f s h, storedBlock_eq f h, State.deliver]
  · exact if_neg fun hok => h.not_ge (of_decide_eq_true hok)

/-- At most 65535 bytes are one block, and it is final. -/
theorem storedStream_of_le {raw : List Byte} (h : raw.length ≤ 65535) : storedStream raw = storedBlock true raw := by
  have hcount : storedBlockCount raw.length = 1 := by simp only [storedBlockCount, storedMax]; omega
  rw [storedStream, hcount]
  simp only [List.range_one, List.flatMap_cons, List.flatMap_nil, List.append_nil, Nat.zero_mul, List.drop_zero,
    storedMax, List.take_of_length_le h]
  rfl

/-- More than 65535 bytes are a full block that is not final, and the stream of the rest
(44_deflate_zlib_ops.md R223). -/
theorem storedStream_of_gt {raw : List Byte} (h : 65535 < raw.length) :
    storedStream raw = storedBlock false (raw.take 65535) ++ storedStream (raw.drop 65535) := by
  have hpos : 0 < storedBlockCount (raw.drop 65535).length := by simp only [storedBlockCount]; omega
  have hcount : storedBlockCount raw.length = storedBlockCount (raw.drop 65535).length + 1 := by
    simp only [storedBlockCount, storedMax, List.length_drop]; omega
  have hfirst : (0 + 1 == storedBlockCount (raw.drop 65535).length + 1) = false := by
    rw [beq_eq_false_iff_ne]; omega
  have hlast (k n : Nat) : (k + 1 + 1 == n + 1) = (k + 1 == n) := by
    rw [Bool.eq_iff_iff, beq_iff_eq, beq_iff_eq, Nat.add_right_cancel_iff]
  rw [storedStream, storedStream, hcount, List.range_succ_eq_map, List.flatMap_cons, List.flatMap_map, hfirst,
    Nat.zero_mul, List.drop_zero]
  simp only [Nat.succ_eq_add_one, Nat.succ_mul, List.drop_drop, storedMax, hlast]
  simp only [Nat.add_comm 65535]

/-- Induction along the greedy split. -/
theorem storedStream_induct {P : List Byte → Prop} (short : ∀ raw, raw.length ≤ 65535 → P raw)
    (long : ∀ raw, 65535 < raw.length → P (raw.drop 65535) → P raw) (raw : List Byte) : P raw := by
  induction hn : raw.length using Nat.strong_induction_on generalizing raw with
  | _ n ih =>
    by_cases h : raw.length ≤ 65535
    · exact short raw h
    · exact long raw (Nat.lt_of_not_le h) (ih _ (by rw [List.length_drop]; omega) _ rfl)

theorem storedStream_length (raw : List Byte) :
    (storedStream raw).length = raw.length + 5 * max 1 ((raw.length + 65534) / 65535) := by
  induction raw using storedStream_induct with
  | short raw h => rw [storedStream_of_le h, storedBlock_length]; omega
  | long raw h ih =>
    rw [storedStream_of_gt h, List.length_append, ih, storedBlock_length, List.length_take, List.length_drop]
    omega

theorem exec_storedStream (raw : List Byte) (s : State) :
    exec (.storedStream raw) s = .next (s.deliverEncoded (storedStream raw)) := rfl

/-- Where no allocation fails an encoder delivers its bytes. -/
theorem State.deliverEncoded_ok {s : State} (h : s.allocationFails = false) (bs : List Byte) :
    s.deliverEncoded bs = { s with
      result := .bytes bs, draws := if s.cfg.allocCanFail then s.draws + 1 else s.draws } := by
  rw [State.deliverEncoded_eq, h]; rfl

/-- Settles O44: `storedStream_of_le` and `storedStream_of_gt`. -/
theorem storedStreamSplitsGreedily : Obligations.StoredStreamSplitsGreedily := by
  refine fun raw s hok => ⟨fun h => ⟨_, exec_storedBlock true s h, ?_⟩, fun h =>
    ⟨_, storedStream (raw.drop 65535), exec_storedBlock false s (List.length_take_le _ _), ?_, ?_⟩⟩
  · rw [exec_storedStream, State.deliverEncoded_ok hok, storedStream_of_le h]
  · rw [exec_storedStream, State.deliverEncoded_ok hok]
  · rw [exec_storedStream, State.deliverEncoded_ok hok, storedStream_of_gt h]

/-! ### Stored blocks: the reader gives back what was stored -/

/-- The reader accepts the header of a block and takes as many bytes as it announces. -/
theorem inflateStored_storedBlock (fuel : Nat) (f : Bool) {data : List Byte} (h : data.length ≤ 65535)
    (rest : List Byte) : inflateStored (fuel + 1) (storedBlock f data ++ rest) =
      if f then some (data, rest) else (inflateStored fuel rest).map fun p => (data ++ p.1, p.2) := by
  have hlen : (BitVec.ofNat 8 (data.length % 256)).toNat + 256 * (BitVec.ofNat 8 (data.length / 256)).toNat =
      data.length := by
    simp only [BitVec.toNat_ofNat]; omega
  have hnlen : (BitVec.ofNat 8 ((65535 - data.length) % 256)).toNat +
      256 * (BitVec.ofNat 8 ((65535 - data.length) / 256)).toNat + data.length = 65535 := by
    simp only [BitVec.toNat_ofNat]; omega
  have hfits : ¬(data ++ rest).length < data.length := by rw [List.length_append]; omega
  rw [storedBlock_eq f h]
  simp only [List.cons_append, inflateStored, hlen, hnlen, ne_eq, not_true, if_false, hfits, List.take_left,
    List.drop_left]
  cases f <;> rfl

/-- A stream inflates to its input and leaves what follows it, with fuel for every byte. -/
theorem inflateStored_storedStream (raw : List Byte) (fuel : Nat) (hfuel : raw.length < fuel) (rest : List Byte) :
    inflateStored fuel (storedStream raw ++ rest) = some (raw, rest) := by
  induction raw using storedStream_induct generalizing fuel with
  | short raw h =>
    obtain ⟨fuel, rfl⟩ := Nat.exists_eq_add_one_of_ne_zero (Nat.ne_zero_of_lt hfuel)
    rw [storedStream_of_le h, inflateStored_storedBlock fuel true h, if_pos rfl]
  | long raw h ih =>
    obtain ⟨fuel, rfl⟩ := Nat.exists_eq_add_one_of_ne_zero (Nat.ne_zero_of_lt hfuel)
    rw [storedStream_of_gt h, List.append_assoc,
      inflateStored_storedBlock fuel false (List.length_take_le _ _), if_neg (by decide),
      ih fuel (by rw [List.length_drop]; omega), Option.map_some, List.take_append_drop]

/-- The four bytes of a word, joined. -/
theorem be32_join (v : BitVec 32) :
    v.extractLsb' 24 8 ++ v.extractLsb' 16 8 ++ v.extractLsb' 8 8 ++ v.extractLsb' 0 8 = v := by
  apply BitVec.eq_of_toNat_eq
  have := v.isLt
  simp only [toNat_append_add, toNat_field]
  omega

/-- The reader accepts the header, and a trailer that is the checksum of what the blocks hold. -/
theorem inflateZlib_of_inflateStored {body data : List Byte} {a b c d : Byte}
    (hbody : inflateStored body.length body = some (data, [a, b, c, d])) (hsum : a ++ b ++ c ++ d = adler32 data) :
    inflateZlib (0x78 :: 0x01 :: body) = some data := by
  unfold inflateZlib
  split
  next _ heq =>
    cases heq
    simp only [hbody]
    exact if_pos hsum
  next hother => exact absurd rfl (hother body)

theorem inflateZlib_zlibWrap (raw : List Byte) : inflateZlib (zlibWrap raw) = some raw := by
  have hbody : inflateStored (storedStream raw ++ be32 (adler32 raw)).length (storedStream raw ++ be32 (adler32 raw)) =
      some (raw, be32 (adler32 raw)) :=
    inflateStored_storedStream raw _ (by rw [List.length_append, storedStream_length]; omega) _
  exact inflateZlib_of_inflateStored hbody (be32_join _)

theorem zlibWrap_length (raw : List Byte) : (zlibWrap raw).length = (storedStream raw).length + 6 := by
  simp only [zlibWrap, be32, List.length_append, List.length_cons, List.length_nil]
  omega

theorem exec_zlibWrap (raw : List Byte) (s : State) :
    exec (.zlibWrap raw) s = .next (s.deliverEncoded (zlibWrap raw)) := rfl

/-- Settles O43: both readers undo their encoder, and the lengths follow the greedy split. -/
theorem streamsInflateToTheirInput : Obligations.StreamsInflateToTheirInput := by
  intro raw s
  refine ⟨storedStream raw, zlibWrap raw, ?_, ?_, ?_, inflateZlib_zlibWrap raw, storedStream_length raw, ?_,
    zlibWrap_length raw⟩
  · rw [exec_storedStream, State.deliverEncoded_eq]
  · rw [exec_zlibWrap, State.deliverEncoded_eq]
  · have hstream := inflateStored_storedStream raw (storedStream raw).length
      (by rw [storedStream_length]; omega) []
    rwa [List.append_nil] at hstream
  · have hdrop : (zlibWrap raw).drop (2 + (storedStream raw).length) = be32 (adler32 raw) :=
      List.drop_left' (by rw [List.length_append]; rfl)
    rw [hdrop, zlibWrap]

end Sys2Proof.Machine

namespace Sys2Proof.Machine

/-! ### PNG: chunks -/

/-- The four bytes of a word, most significant first, in numbers. -/
theorem be32_eq (v : BitVec 32) : be32 v = [BitVec.ofNat 8 (v.toNat / 2 ^ 24), BitVec.ofNat 8 (v.toNat / 2 ^ 16),
    BitVec.ofNat 8 (v.toNat / 2 ^ 8), BitVec.ofNat 8 v.toNat] := by
  simp only [be32, field_eq_ofNat, Nat.pow_zero, Nat.div_one]

theorem exec_pngChunk {data : List Byte} (ty : ChunkType) (s : State) (h : data.length < 2 ^ 31) :
    exec (.pngChunk ty data) s = .next (s.deliver (.bytes (pngChunk ty data))) :=
  if_pos (decide_eq_true h)

/-- Settles O45: a length in range is what its four bytes hold; beyond it the range check refuses. -/
theorem pngChunkLayout : Obligations.PngChunkLayout := by
  refine fun ty data s => ⟨fun h => ⟨crc32 (ty.toBytes ++ data), rfl, ?_⟩, fun h => ?_⟩
  · have hlen : (BitVec.ofNat 32 data.length).toNat = data.length := by rw [BitVec.toNat_ofNat]; omega
    rw [exec_pngChunk ty s h, pngChunk, be32_eq, be32_eq, hlen, State.deliver]
  · exact if_neg fun hok => h.not_gt (of_decide_eq_true hok)

/-! ### PNG: the raw scanlines as pieces of one length -/

section
variable {α β : Type} {f : α → List β} {n : Nat}

theorem length_flatMap_of_length {l : List α} (hf : ∀ x ∈ l, (f x).length = n) :
    (l.flatMap f).length = l.length * n := by
  induction l with
  | nil => simp
  | cons x l ih =>
    obtain ⟨hx, hl⟩ := List.forall_mem_cons.1 hf
    rw [List.flatMap_cons, List.length_append, hx, ih hl, List.length_cons, Nat.succ_mul, Nat.add_comm]

/-- Dropping `k` pieces of one length. -/
theorem drop_flatMap_of_length {l : List α} (hf : ∀ x ∈ l, (f x).length = n) (k : Nat) :
    (l.flatMap f).drop (k * n) = (l.drop k).flatMap f := by
  induction l generalizing k with
  | nil => simp
  | cons x l ih =>
    obtain ⟨hx, hl⟩ := List.forall_mem_cons.1 hf
    cases k with
    | zero => rw [Nat.zero_mul, List.drop_zero, List.drop_zero]
    | succ k =>
      rw [List.flatMap_cons, Nat.succ_mul, Nat.add_comm, ← List.drop_drop, ← hx, List.drop_left, hx, ih hl,
        List.drop_succ_cons]

/-- From piece `k` on, the pieces begin with it. -/
theorem drop_flatMap_eq_append {l : List α} (hf : ∀ x ∈ l, (f x).length = n) {k : Nat} (hk : k < l.length) :
    ∃ rest, (l.flatMap f).drop (k * n) = f l[k] ++ rest :=
  ⟨(l.drop (k + 1)).flatMap f, by rw [drop_flatMap_of_length hf, List.drop_eq_getElem_cons hk, List.flatMap_cons]⟩

end

/-- One row of the raw scanline stream: the filter byte and the pixels (45_png_nim_ops.md R242). -/
def pngRow (w : Nat) (idx pal : List Byte) (t : Byte) (y : Nat) : List Byte :=
  0 :: ((idx.drop (y * w)).take w).flatMap (pngPixel pal t)

theorem pngRaw_eq (w h : Nat) (idx pal : List Byte) (t : Byte) :
    pngRaw w h idx pal t = (List.range h).flatMap (pngRow w idx pal t) := rfl

theorem pngPixel_length (pal : List Byte) (t i : Byte) : (pngPixel pal t i).length = 4 := rfl

/-- The index bytes of a row, as many as the image is wide. -/
theorem row_indices_length {w h y : Nat} {idx : List Byte} (hidx : idx.length = w * h) (hy : y < h) :
    ((idx.drop (y * w)).take w).length = w := by
  have hrows : (y + 1) * w ≤ h * w := Nat.mul_le_mul_right w hy
  rw [List.length_take, List.length_drop, hidx, Nat.mul_comm w h]
  rw [Nat.succ_mul] at hrows
  omega

theorem pngRow_length {w h y : Nat} {idx : List Byte} (pal : List Byte) (t : Byte) (hidx : idx.length = w * h)
    (hy : y < h) : (pngRow w idx pal t y).length = 1 + 4 * w := by
  rw [pngRow, List.length_cons, length_flatMap_of_length fun i _ => pngPixel_length pal t i,
    row_indices_length hidx hy]
  omega

theorem pngRaw_length {w h : Nat} {idx : List Byte} (pal : List Byte) (t : Byte) (hidx : idx.length = w * h) :
    (pngRaw w h idx pal t).length = h * (1 + 4 * w) := by
  rw [pngRaw_eq, length_flatMap_of_length fun y hy => pngRow_length pal t hidx (List.mem_range.1 hy), List.length_range]

/-- The stream from row `y` on. -/
theorem pngRaw_drop {w h y : Nat} {idx : List Byte} (pal : List Byte) (t : Byte) (hidx : idx.length = w * h)
    (hy : y < h) : ∃ rest, (pngRaw w h idx pal t).drop (y * (1 + 4 * w)) = pngRow w idx pal t y ++ rest := by
  obtain ⟨rest, h⟩ := drop_flatMap_eq_append (k := y)
    (fun z hz => pngRow_length pal t hidx (List.mem_range.1 hz)) (by rwa [List.length_range])
  rw [List.getElem_range] at h
  exact ⟨rest, h⟩

/-- A row from pixel `x` on. -/
theorem pngRow_drop {w h y x : Nat} {idx : List Byte} (pal : List Byte) (t : Byte) (hidx : idx.length = w * h)
    (hy : y < h) (hx : x < w) : ∃ i rest, idx[y * w + x]? = some i ∧
      (pngRow w idx pal t y).drop (1 + 4 * x) = pngPixel pal t i ++ rest := by
  have hlen := row_indices_length hidx hy
  have hx' : x < ((idx.drop (y * w)).take w).length := by rwa [hlen]
  obtain ⟨rest, h⟩ := drop_flatMap_eq_append (fun i _ => pngPixel_length pal t i) hx'
  refine ⟨((idx.drop (y * w)).take w)[x], rest, ?_, ?_⟩
  · rw [← List.getElem?_eq_getElem hx', List.getElem?_take_of_lt hx, List.getElem?_drop]
  · rw [pngRow, Nat.add_comm, List.drop_succ_cons, Nat.mul_comm 4 x, h]

/-- Settles O47: the row at its multiple of the row length, the pixel at its multiple of 4 in the row. -/
theorem pngScanlinesHoldThePixels : Obligations.PngScanlinesHoldThePixels := by
  refine fun w h idx pal tr hidx hpal => ⟨pngRaw_length pal tr hidx, fun y hy => ?_⟩
  obtain ⟨below, hraw⟩ := pngRaw_drop pal tr hidx hy
  refine ⟨?_, fun x hx => ?_⟩
  · have hhead := congrArg (·[0]?) hraw
    simpa [List.getElem?_drop, pngRow] using hhead
  · obtain ⟨i, right, hi, hrow⟩ := pngRow_drop pal tr hidx hy hx
    have hpali : i.toNat < pal.length := by rw [hpal]; exact i.isLt
    have hfit : 1 + 4 * x ≤ (pngRow w idx pal tr y).length := by rw [pngRow_length pal tr hidx hy]; omega
    refine ⟨i, pal[i.toNat], hi, List.getElem?_eq_getElem hpali, ?_⟩
    rw [Nat.add_assoc, ← List.drop_drop, hraw, List.drop_append_of_le_length hfit, hrow, List.append_assoc,
      List.take_left' (pngPixel_length pal tr i), pngPixel, List.getD_eq_getElem _ _ hpali]

/-! ### PNG and NIM: whole images -/

/-- The operand range of PNG_ENCODE, in numbers (93_implementation_defined.md U9). -/
theorem pngEncodeOk_iff {w h : Nat} {idx pal : List Byte} : pngEncodeOk w h idx pal = true ↔
    1 ≤ w ∧ w < 2 ^ 31 ∧ 1 ≤ h ∧ h < 2 ^ 31 ∧ idx.length = w * h ∧ pal.length = 256 ∧
      6 + h * (1 + 4 * w) + 5 * max 1 ((h * (1 + 4 * w) + 65534) / 65535) < 2 ^ 31 := by
  have hlen : 2 + pngRawLength w h + 5 * storedBlockCount (pngRawLength w h) + 4 =
      6 + h * (1 + 4 * w) + 5 * max 1 ((h * (1 + 4 * w) + 65534) / 65535) := by
    simp only [pngRawLength, storedBlockCount, storedMax]
    omega
  simp only [pngEncodeOk, hlen, Bool.and_eq_true, decide_eq_true_eq, beq_iff_eq, and_assoc]

theorem exec_pngEncode {w h : Nat} {idx pal : List Byte} (tr : Byte) (s : State)
    (hok : pngEncodeOk w h idx pal = true) : exec (.pngEncode w h idx pal tr) s = .next (s.deliverEncoded (pngEncode w h idx pal tr)) :=
  if_pos hok

theorem pngChunk_ihdr (w h : Nat) : pngChunk typeIhdr (ihdrData w h) =
    [0, 0, 0, 13, 0x49, 0x48, 0x44, 0x52] ++ be32 (BitVec.ofNat 32 w) ++ be32 (BitVec.ofNat 32 h) ++ [8, 6, 0, 0, 0] ++
      be32 (crc32 ([0x49, 0x48, 0x44, 0x52] ++ be32 (BitVec.ofNat 32 w) ++ be32 (BitVec.ofNat 32 h) ++
        [8, 6, 0, 0, 0])) := by
  have hlen : (ihdrData w h).length = 13 := rfl
  have hbe : be32 (BitVec.ofNat 32 13) = [0, 0, 0, 13] := by decide
  rw [pngChunk, hlen, hbe]
  simp only [ihdrData, ChunkType.toBytes, typeIhdr, List.append_assoc, List.cons_append, List.nil_append]

theorem pngChunk_idat (z : List Byte) : pngChunk typeIdat z =
    be32 (BitVec.ofNat 32 z.length) ++ [0x49, 0x44, 0x41, 0x54] ++ z ++
      be32 (crc32 ([0x49, 0x44, 0x41, 0x54] ++ z)) := rfl

theorem crc32_iend : crc32 [0x49, 0x45, 0x4E, 0x44] = 0xAE426082 := by decide +kernel

theorem pngChunk_iend : pngChunk typeIend [] = [0, 0, 0, 0, 0x49, 0x45, 0x4E, 0x44] ++ be32 0xAE426082 := by
  rw [← crc32_iend]; rfl

/-- Settles O46: the stream chunk by chunk; the IDAT data is the zlib stream of the scanlines. -/
theorem pngEncodeIsAStructurallyValidPng : Obligations.PngEncodeIsAStructurallyValidPng := by
  intro w h idx pal tr s hw hw' hh hh' hidx hpal hlen
  have hok := pngEncodeOk_iff.2 ⟨hw, hw', hh, hh', hidx, hpal, hlen⟩
  refine ⟨zlibWrap (pngRaw w h idx pal tr), _, _, _, ?_, rfl, rfl, rfl, inflateZlib_zlibWrap _, ?_⟩
  · rw [exec_pngEncode tr s hok, State.deliverEncoded_eq, pngEncode, pngChunk_ihdr, pngChunk_idat, pngChunk_iend]
    rfl
  · rw [zlibWrap_length, storedStream_length, pngRaw_length pal tr hidx]
    omega

/-- Settles O48: each way out of range contradicts `pngEncodeOk_iff`. -/
theorem imagesOutOfRangeAreRefused : Obligations.ImagesOutOfRangeAreRefused := by
  refine ⟨fun w h idx pal tr s hout => if_neg fun hok => ?_, fun w h img s hlen => if_neg fun hok => ?_⟩
  · obtain ⟨hw, hw', hh, hh', hidx, hpal, hlen⟩ := pngEncodeOk_iff.1 hok
    rcases hout with h0 | h0 | h1 | h1 | h1 | h1 | h1
    · omega
    · omega
    · omega
    · omega
    · exact h1 hidx
    · exact h1 hpal
    · exact h1.not_gt hlen
  · exact hlen (beq_iff_eq.1 hok)

/-- Settles O49: the container's two sizes, byte by byte. -/
theorem nimWriteLayout : Obligations.NimWriteLayout := by
  intro w h img s hlen
  rw [exec_nimWrite s hlen, State.deliverEncoded_eq, nimWrite, le16_eq w, le16_eq h]
  rfl

/-- NIM_READ in numbers, on input that has all six header bytes (45_png_nim_ops.md R247). -/
theorem nimRead_header (v0 v1 w0 w1 h0 h1 : Byte) (rest : List Byte) :
    nimRead (v0 :: v1 :: w0 :: w1 :: h0 :: h1 :: rest) =
      if v0 = 0 ∧ v1 = 0 ∧ (w0.toNat + 256 * w1.toNat) * (h0.toNat + 256 * h1.toNat) ≤ rest.length then
        .image (BitVec.ofNat 16 (w0.toNat + 256 * w1.toNat)) (BitVec.ofNat 16 (h0.toNat + 256 * h1.toNat))
          (rest.take ((w0.toNat + 256 * w1.toNat) * (h0.toNat + 256 * h1.toNat)))
      else .failed .malformedInput := by
  have hsize (hi lo : Byte) : lo.toNat + 256 * hi.toNat = (hi ++ lo : BitVec 16).toNat := by rw [toNat_pair]; omega
  simp only [hsize, BitVec.ofNat_toNat, BitVec.setWidth_eq, nimRead]
  by_cases hv : (v1 ++ v0 : BitVec 16) = 0
  · obtain ⟨hv1, hv0⟩ := pair_eq_zero.1 hv
    by_cases hlen : (w1 ++ w0 : BitVec 16).toNat * (h1 ++ h0 : BitVec 16).toNat ≤ rest.length
    · rw [if_neg (not_not.2 hv), if_neg hlen.not_gt, if_pos ⟨hv0, hv1, hlen⟩]
    · rw [if_neg (not_not.2 hv), if_pos (Nat.lt_of_not_le hlen), if_neg fun h => hlen h.2.2]
  · rw [if_pos hv, if_neg fun h => hv (pair_eq_zero.2 ⟨h.2.1, h.1⟩)]

/-- Fewer than six bytes are no header. -/
theorem nimRead_short {bs : List Byte} (h : bs.length < 6) : nimRead bs = .failed .malformedInput := by
  unfold nimRead
  split
  · simp only [List.length_cons] at h; omega
  · rfl

/-- Settles O50: fewer than six bytes by `nimRead_short`, the rest by `nimRead_header`. -/
theorem nimReadFailsClosed : Obligations.NimReadFailsClosed := by
  refine fun s => ⟨fun bs h => ?_, fun v0 v1 w0 w1 h0 h1 rest => ?_⟩
  · rw [exec_nimRead, nimRead_short h, State.deliver]
  · rw [exec_nimRead, nimRead_header, State.deliver]

end Sys2Proof.Machine

namespace Sys2Proof.Machine

/-! ### The whole machine: the step, and reset -/

theorem step_of_nil {s : State} (hp : s.pending = []) : step s = .next s := by
  unfold step
  split
  · rfl
  next hcons => rw [hp] at hcons; cases hcons

theorem step_of_decode_error {s : State} {t : Transaction} {rest : List Transaction} {e : DecodeError}
    (hp : s.pending = t :: rest) (hd : decode s.decodeCtx t = .error e) : step s = .refused (.undecodable e) := by
  unfold step
  split
  next hnil => rw [hp] at hnil; cases hnil
  next hcons =>
    rw [hp] at hcons
    cases hcons
    rw [hd]

/-- A record that decodes is performed, with its element off the list, if its operands are in range. -/
theorem step_of_decode_ok {s : State} {t : Transaction} {rest : List Transaction} {i : Instr}
    (hp : s.pending = t :: rest) (hd : decode s.decodeCtx t = .ok i) : step s =
      if i.wellFormed then exec i { s with pending := rest } else .refused (.operandsOutOfRange i.mnemonic) := by
  unfold step
  split
  next hnil => rw [hp] at hnil; cases hnil
  next hcons =>
    rw [hp] at hcons
    cases hcons
    rw [hd]

/-- Settles O1: `step_of_decode_ok` on operands in range. -/
theorem stepPerformsTheNextTransaction : Obligations.StepPerformsTheNextTransaction :=
  fun _ _ _ _ hp hd hwf => (step_of_decode_ok hp hd).trans (if_pos hwf)

/-- Settles O2: the empty list, a record that does not decode, and operands out of range. -/
theorem stepIdlesOrRefusesOtherwise : Obligations.StepIdlesOrRefusesOtherwise :=
  ⟨fun _ => step_of_nil, fun _ _ _ _ => step_of_decode_error,
    fun _ _ _ _ hp hd hwf => (step_of_decode_ok hp hd).trans (if_neg (Bool.eq_false_iff.1 hwf))⟩

/-- The bank each slot maps after reset (10_state.md R45). -/
theorem resetWith_slotBank (c : Config) (p : ResetParams) (i : BitVec 2) :
    (State.resetWith c p).slotBank i = [0, 5, 2, 0].getD i.toNat 0 := by
  have hslots : ∀ j : BitVec 2,
      ((#v[0, 5, 2, 0] : Vector (BitVec 6) 4)[j.toNat]'j.isLt).toNat = [0, 5, 2, 0].getD j.toNat 0 := by decide
  exact hslots i

/-- The identity palette holds each index at its own place. -/
theorem identityPalette_getElem (i : Byte) : identityPalette[i.toNat]'i.isLt = i := by
  simp [identityPalette]

theorem State.Inv.resetWith (c : Config) (p : ResetParams) (hwf : Memory.wf p.ramInit)
    (hrange : ∀ cell ∈ p.ramInit, cell.1 < c.nbanks * 16384) : (State.resetWith c p).Inv where
  ramCanonical := hwf
  ramInRange := hrange
  slotsInRange i := by
    have hbank : ∀ j : BitVec 2, [0, 5, 2, 0].getD j.toNat 0 < 32 := by decide
    have hbanks : 32 ≤ c.nbanks := by unfold Config.nbanks; split <;> decide
    rw [resetWith_slotBank]
    exact (hbank i).trans_le hbanks
  slotsFixed := ⟨rfl, rfl, rfl⟩
  slot3High := by rw [resetWith_slotBank]; rfl
  noPaging _ := ⟨rfl, rfl, rfl⟩
  paletteIdentity := rfl
  frameHeight := List.length_replicate
  frameWidth row hrow := by rw [List.eq_of_mem_replicate hrow]; exact List.length_replicate
  adlerInRange := 
    have hzero : (0 : BitVec 16).toNat < adlerMod := by decide
    ⟨hzero, hzero⟩

/-- Settles O52: `State.Inv.resetWith`, and the empty RAM of `State.reset` is in canonical form. -/
theorem resetMeetsTheInvariants : Obligations.ResetMeetsTheInvariants :=
  ⟨State.Inv.resetWith, State.Inv.resetWith _ _ Memory.wf_nil fun _ h => by cases h⟩

/-- Settles O54: each value is the field `State.resetWith` gives it; the palette needs `identityPalette_getElem`. -/
theorem resetLeavesTheSourcesValuesAndTheParameters : Obligations.ResetLeavesTheSourcesValuesAndTheParameters :=
  fun _ _ => ⟨rfl, rfl, rfl, rfl, rfl, identityPalette_getElem, rfl, rfl, rfl, rfl, rfl, rfl, rfl, rfl, rfl, rfl, rfl,
    rfl, rfl, fun _ => rfl, rfl⟩

/-! ### The whole machine: completion and failure -/

/-- Settles O55: an operation is refused for operands out of range alone. -/
theorem everyOperationCompletesInEveryState : Obligations.EveryOperationCompletesInEveryState := by
  intro i s hwf
  cases i with
  | bulkwr a bs =>
    by_cases h : a.toNat + bs.length ≤ logicalSize
    · exact ⟨_, exec_bulkwr_fits s h⟩
    · exact ⟨_, exec_bulkwr_overlong s (Nat.lt_of_not_le h)⟩
  | bulkwrbk b o bs =>
    by_cases h : o + bs.length ≤ pageSize
    · exact ⟨_, exec_bulkwrbk_fits b s h⟩
    · exact ⟨_, exec_bulkwrbk_overlong b s (Nat.lt_of_not_le h)⟩
  | storedBlock f data => exact ⟨_, exec_storedBlock f s (of_decide_eq_true hwf)⟩
  | pngChunk ty data => exact ⟨_, exec_pngChunk ty s (of_decide_eq_true hwf)⟩
  | pngEncode w h idx pal tr => exact ⟨_, exec_pngEncode tr s hwf⟩
  | nimWrite w h img => exact ⟨_, exec_nimWrite s (beq_iff_eq.1 hwf)⟩
  | _ => exact ⟨_, rfl⟩

theorem State.sameBlock_deliver (s : State) (r : Result) : s.sameBlock (s.deliver r) := rfl

theorem State.sameBlock_deliverEncoded (s : State) (bs : List Byte) : s.sameBlock (s.deliverEncoded bs) := by
  rw [State.deliverEncoded_eq]; rfl

/-- The one failure of an encoder (60_exceptions.md R262). -/
theorem State.deliverEncoded_failed {s : State} {bs : List Byte} {f : Failure}
    (h : (s.deliverEncoded bs).result = .failed f) : f = .allocationFailed := by
  rw [State.deliverEncoded_eq] at h
  dsimp only at h
  split at h
  · injection h with h; exact h.symm
  · cases h

/-- The one failure of NIM_READ (45_png_nim_ops.md R247). -/
theorem nimRead_failed {bs : List Byte} {f : Failure} (h : nimRead bs = .failed f) : f = .malformedInput := by
  unfold nimRead at h
  split at h
  · dsimp only at h
    split at h
    · injection h with h; exact h.symm
    · split at h
      · injection h with h; exact h.symm
      · cases h
  · injection h with h; exact h.symm

/-- An operation that delivers a result of its own has not failed. -/
theorem not_failed_of_deliver {s t : State} {r : Result} {f : Failure} (h : (.next (s.deliver r) : Answer) = .next t)
    (hr : ∀ f, r ≠ .failed f) : t.result ≠ .failed f := by
  cases h
  exact hr f

/-- Settles O56, operation by operation: the bulk writes before any write, the encoders, NIM_READ, and no other. -/
theorem failedOperationChangesNothing : Obligations.FailedOperationChangesNothing := by
  intro i s t f h hf
  cases i with
  | bulkwr a bs =>
    by_cases hfit : a.toNat + bs.length ≤ logicalSize
    · rw [exec_bulkwr_fits s hfit] at h
      exact absurd hf (not_failed_of_deliver h (by simp))
    · rw [exec_bulkwr_overlong s (Nat.lt_of_not_le hfit)] at h
      cases h
      cases hf
      exact ⟨s.sameBlock_deliver _, .inl ⟨a, bs, rfl⟩⟩
  | bulkwrbk b o bs =>
    by_cases hfit : o + bs.length ≤ pageSize
    · rw [exec_bulkwrbk_fits b s hfit] at h
      exact absurd hf (not_failed_of_deliver h (by simp))
    · rw [exec_bulkwrbk_overlong b s (Nat.lt_of_not_le hfit)] at h
      cases h
      cases hf
      exact ⟨s.sameBlock_deliver _, .inr ⟨b, o, bs, rfl⟩⟩
  | storedStream raw =>
    cases h
    obtain rfl := State.deliverEncoded_failed hf
    exact ⟨s.sameBlock_deliverEncoded _, .inl ⟨raw, rfl⟩⟩
  | zlibWrap raw =>
    cases h
    obtain rfl := State.deliverEncoded_failed hf
    exact ⟨s.sameBlock_deliverEncoded _, .inr (.inl ⟨raw, rfl⟩)⟩
  | pngEncode w h' idx pal tr =>
    simp only [exec, execPngEncode] at h
    split at h
    · cases h
      obtain rfl := State.deliverEncoded_failed hf
      exact ⟨s.sameBlock_deliverEncoded _, .inr (.inr (.inl ⟨w, h', idx, pal, tr, rfl⟩))⟩
    · cases h
  | nimWrite w h' img =>
    simp only [exec, execNimWrite] at h
    split at h
    · cases h
      obtain rfl := State.deliverEncoded_failed hf
      exact ⟨s.sameBlock_deliverEncoded _, .inr (.inr (.inr ⟨w, h', img, rfl⟩))⟩
    · cases h
  | nimRead bs =>
    cases h
    obtain rfl := nimRead_failed hf
    exact ⟨s.sameBlock_deliver _, bs, rfl⟩
  | storedBlock | pngChunk =>
    simp only [exec, execStoredBlock, execPngChunk] at h
    split at h
    · exact absurd hf (not_failed_of_deliver h (by simp))
    · cases h
  | _ => exact absurd hf (not_failed_of_deliver h (by simp))

/-! ### The whole machine: what each item changes by -/

/-- What a port write leaves (10_state.md R33). -/
theorem State.portOut_frame (s : State) (p : Addr) (v : Byte) : s.portOut p v = { s with
    slot := (s.portOut p v).slot, border := (s.portOut p v).border
    pagingLow := (s.portOut p v).pagingLow, pagingHigh := (s.portOut p v).pagingHigh
    subBank := (s.portOut p v).subBank, shadowEnable := (s.portOut p v).shadowEnable
    enable := (s.portOut p v).enable, write0Enable := (s.portOut p v).write0Enable
    regSelect := (s.portOut p v).regSelect, bankStart := (s.portOut p v).bankStart
    shadowBankStart := (s.portOut p v).shadowBankStart, transparentIndex := (s.portOut p v).transparentIndex
    redrawRequest := (s.portOut p v).redrawRequest } :=
  s.rowEffect_frame v _

/-- A flash tick changes the flash items and the redraw request. -/
theorem State.flashTick_frame (s : State) : s.flashTick = { s with
    tickCounter := s.flashTick.tickCounter, flashToggle := s.flashTick.flashToggle
    redrawRequest := s.flashTick.redrawRequest } := by
  rw [State.flashTick_eq]
  split <;> rfl

section
variable {i : Instr} {s t : State}

/-- RAM: the memory writes (10_state.md R47). -/
theorem Effect.ram_eq (he : Effect i s t) (h : i.writesRam = false) : t.ram = s.ram := by
  cases he with
  | ram _ _ hi => rw [hi] at h; cases h
  | bulk _ _ _ hi => rw [hi] at h; cases h
  | encoded => rw [State.deliverEncoded_eq]
  | port p v => rw [State.portOut_frame]; rfl
  | writereg r v => rw [State.portOut_frame]; rfl
  | tick => rw [State.flashTick_frame]; rfl
  | deliver | readreg | frame | ackredraw | sums => rfl

/-- The slot table and the registers of the PortDecoder: the port writes (10_state.md R33). -/
theorem Effect.ports_eq (he : Effect i s t) (h : i.writesPorts = false) :
    t = { s with
      ram := t.ram, redrawRequest := t.redrawRequest, flashToggle := t.flashToggle, tickCounter := t.tickCounter
      fb := t.fb, crc := t.crc, s1 := t.s1, s2 := t.s2, result := t.result, draws := t.draws } := by
  cases he with
  | port _ _ hi => rw [hi] at h; cases h
  | writereg _ _ hi | readreg _ hi => rw [hi] at h; cases h
  | ram => rw [State.setRamBytes_eq]; rfl
  | bulk => rw [State.setRamBytes_eq]; rfl
  | encoded => rw [State.deliverEncoded_eq]
  | tick => rw [State.flashTick_frame]; rfl
  | deliver | frame | ackredraw | sums => rfl

/-- The flash items: TICK (10_state.md R35, R36). -/
theorem Effect.flash_eq (he : Effect i s t) (h : i ≠ .tick) :
    t.flashToggle = s.flashToggle ∧ t.tickCounter = s.tickCounter := by
  cases he with
  | tick hi => exact absurd hi h
  | ram => rw [State.setRamBytes_eq]; exact ⟨rfl, rfl⟩
  | bulk => rw [State.setRamBytes_eq]; exact ⟨rfl, rfl⟩
  | encoded => rw [State.deliverEncoded_eq]; exact ⟨rfl, rfl⟩
  | port p v => rw [State.portOut_frame]; exact ⟨rfl, rfl⟩
  | writereg r v => rw [State.portOut_frame]; exact ⟨rfl, rfl⟩
  | deliver | readreg | frame | ackredraw | sums => exact ⟨rfl, rfl⟩

/-- The frame: the renders (10_state.md R37). -/
theorem Effect.fb_eq (he : Effect i s t) (h : i.writesFrame = false) : t.fb = s.fb := by
  cases he with
  | frame _ hi => rw [hi] at h; cases h
  | ram => rw [State.setRamBytes_eq]; rfl
  | bulk => rw [State.setRamBytes_eq]; rfl
  | encoded => rw [State.deliverEncoded_eq]
  | port p v => rw [State.portOut_frame]; rfl
  | writereg r v => rw [State.portOut_frame]; rfl
  | tick => rw [State.flashTick_frame]; rfl
  | deliver | readreg | ackredraw | sums => rfl

/-- The running checksums: their own operations (10_state.md R38, R39). -/
theorem Effect.sums_eq (he : Effect i s t) (h : i.writesSums = false) : t.crc = s.crc ∧ t.s1 = s.s1 ∧ t.s2 = s.s2 := by
  cases he with
  | sums _ _ _ hi => rw [hi] at h; cases h
  | ram => rw [State.setRamBytes_eq]; exact ⟨rfl, rfl, rfl⟩
  | bulk => rw [State.setRamBytes_eq]; exact ⟨rfl, rfl, rfl⟩
  | encoded => rw [State.deliverEncoded_eq]; exact ⟨rfl, rfl, rfl⟩
  | port p v => rw [State.portOut_frame]; exact ⟨rfl, rfl, rfl⟩
  | writereg r v => rw [State.portOut_frame]; exact ⟨rfl, rfl, rfl⟩
  | tick => rw [State.flashTick_frame]; exact ⟨rfl, rfl, rfl⟩
  | deliver | readreg | frame | ackredraw => exact ⟨rfl, rfl, rfl⟩

/-- The redraw request: BULKWR, the port writes, TICK and ACKREDRAW (10_state.md R40). -/
theorem Effect.redraw_eq (he : Effect i s t) (hports : i.writesPorts = false) (htick : i ≠ .tick)
    (hack : i ≠ .ackredraw) (hbulk : ∀ a bs, i ≠ .bulkwr a bs) : t.redrawRequest = s.redrawRequest := by
  cases he with
  | port _ _ hi => rw [hi] at hports; cases hports
  | writereg _ _ hi | readreg _ hi => rw [hi] at hports; cases hports
  | tick hi => exact absurd hi htick
  | ackredraw hi => exact absurd hi hack
  | bulk a bs _ hi => exact absurd hi (hbulk a bs)
  | ram => rw [State.setRamBytes_eq]; rfl
  | encoded => rw [State.deliverEncoded_eq]
  | deliver | frame | sums => rfl

/-- The palette and the parameters: no operation (10_state.md R34, R46). -/
theorem Effect.constant_eq (he : Effect i s t) : t.palette = s.palette ∧ t.cfg = s.cfg := by
  cases he with
  | ram => rw [State.setRamBytes_eq]; exact ⟨rfl, rfl⟩
  | bulk => rw [State.setRamBytes_eq]; exact ⟨rfl, rfl⟩
  | encoded => rw [State.deliverEncoded_eq]; exact ⟨rfl, rfl⟩
  | port p v => rw [State.portOut_frame]; exact ⟨rfl, rfl⟩
  | writereg r v => rw [State.portOut_frame]; exact ⟨rfl, rfl⟩
  | tick => rw [State.flashTick_frame]; exact ⟨rfl, rfl⟩
  | deliver | readreg | frame | ackredraw | sums => exact ⟨rfl, rfl⟩

end

/-- Settles O57: a clause for each kind of state, from the one effect of the operation. -/
theorem stateChangesOnlyThroughItsPaths : Obligations.StateChangesOnlyThroughItsPaths := by
  intro i s t h
  have he := exec_effect h
  refine ⟨he.ram_eq, fun hports => ?_, he.flash_eq, he.fb_eq, he.sums_eq, he.redraw_eq, he.constant_eq⟩
  rw [he.ports_eq hports]
  exact ⟨rfl, rfl, rfl, rfl, rfl, rfl, rfl, rfl, rfl, rfl, rfl, rfl⟩

/-! ### The whole machine: the redraw request -/

/-- A port write raises the request by the row its port number selects (10_state.md R40). -/
theorem State.portOut_raises {s : State} {p : Addr} {v : Byte} (hlow : s.redrawRequest = false)
    (hhigh : (s.portOut p v).redrawRequest = true) :
    p.toNat % 256 = 0xFE ∨ p = 0x123B ∨ p = 0x253B ∧ (s.regSelect = 0x12 ∨ s.regSelect = 0x13) := by
  have haccepts (row : PortRow) (hb : row ≠ .border) (hn : row ≠ .none) (hrow : selectRow s.decodeCtx p = row) :
      p = row.pattern ∧ row.condition s.decodeCtx = true :=
    (PortRow.accepts_exact _ p hb hn).1 (accepts_of_selectRow hn hrow)
  cases hrow : selectRow s.decodeCtx p with
  | border => exact .inl (low_byte_eq.1 ((PortRow.accepts_border _ p).1 (accepts_of_selectRow (by decide) hrow)))
  | l2ctrl => exact .inr (.inl (haccepts _ (by decide) (by decide) hrow).1)
  | regdata12 =>
    obtain ⟨hp, hc⟩ := haccepts _ (by decide) (by decide) hrow
    exact .inr (.inr ⟨hp, .inl (beq_iff_eq.1 hc)⟩)
  | regdata13 =>
    obtain ⟨hp, hc⟩ := haccepts _ (by decide) (by decide) hrow
    exact .inr (.inr ⟨hp, .inr (beq_iff_eq.1 hc)⟩)
  | pagelo | pagehi | regsel | regdata14 | regdataNone | rsvd | none =>
    rw [State.portOut_of hrow] at hhigh
    exact absurd (hlow.symm.trans hhigh) (by decide)

/-- No port write clears the request. -/
theorem State.portOut_keeps_redraw {s : State} (h : s.redrawRequest = true) (p : Addr) (v : Byte) :
    (s.portOut p v).redrawRequest = true := by
  rw [State.portOut]
  cases selectRow s.decodeCtx p with
  | border | l2ctrl | regdata12 | regdata13 => rfl
  | pagelo | pagehi | regsel | regdata14 | regdataNone | rsvd | none => exact h

/-- Only ACKREDRAW clears the request (decision D19). -/
theorem Effect.keeps_redraw {i : Instr} {s t : State} (he : Effect i s t) (h : s.redrawRequest = true)
    (hack : i ≠ .ackredraw) : t.redrawRequest = true := by
  cases he with
  | ackredraw hi => exact absurd hi hack
  | ram => rw [State.setRamBytes_eq]; exact h
  | encoded => rw [State.deliverEncoded_eq]; exact h
  | port p v => exact State.portOut_keeps_redraw h p v
  | writereg r v => exact State.portOut_keeps_redraw (s := s.rowRegsel r) h _ v
  | tick =>
    rw [State.flashTick_eq]
    split
    · rfl
    · exact h
  | bulk => rfl
  | deliver | readreg | frame | sums => exact h

/-- Settles O58: of the effects, a bulk write, TICK at its last count and the port writes can raise the request. -/
theorem redrawRequestHasFiveSources : Obligations.RedrawRequestHasFiveSources := by
  intro i s t h
  have he := exec_effect h
  refine ⟨fun hlow hhigh => ?_, fun hset hclear => ?_⟩
  · have hsame : t.redrawRequest ≠ s.redrawRequest := by rw [hlow, hhigh]; decide
    cases he with
    | bulk a bs _ hi hl => exact .inl ⟨a, bs, hi, hl⟩
    | tick hi =>
      refine .inr (.inl ⟨hi, ?_⟩)
      by_contra h15
      refine hsame ?_
      rw [State.flashTick_counts fun h => h15 (BitVec.eq_of_toNat_eq h)]
      rfl
    | writereg r v hi =>
      have hsource := State.portOut_raises (s := s.rowRegsel r) hlow hhigh
      refine .inr (.inr (.inl ⟨r, v, hi, ?_⟩))
      rcases hsource with hp | hp | ⟨-, hr⟩
      · exact absurd hp (by decide)
      · exact absurd hp (by decide)
      · exact hr
    | port p v _ hrec => exact .inr (.inr (.inr ⟨p, v, hrec, exec_eq_exec_out hrec s, State.portOut_raises hlow hhigh⟩))
    | ackredraw => cases hhigh
    | ram => rw [State.setRamBytes_eq] at hsame; exact absurd rfl hsame
    | encoded => rw [State.deliverEncoded_eq] at hsame; exact absurd rfl hsame
    | deliver | readreg | frame | sums => exact absurd rfl hsame
  · by_contra hack
    rw [he.keeps_redraw hset hack] at hclear
    cases hclear

/-! ### The whole machine: what no step changes -/

/-- Slots 0 to 2; without the paging ports the whole slot table; without register 0x14 the transparent index. -/
structure State.KeepsFixed (s t : State) : Prop where
  slots : ∀ i : BitVec 2, i ≠ 3 → t.slotBank i = s.slotBank i
  table : s.cfg.banks = .banks32 → t.slot = s.slot
  transparent : s.cfg.hasL2Transp = false → t.transparentIndex = s.transparentIndex

theorem State.KeepsFixed.of_eq {s t : State} (hslot : t.slot = s.slot)
    (htransp : t.transparentIndex = s.transparentIndex) : s.KeepsFixed t where
  slots i _ := by rw [State.slotBank, State.slotBank]; simp only [hslot]
  table _ := hslot
  transparent _ := htransp

/-- A port write remaps slot 3 alone, where the 1MB map is, and writes register 0x14 where the block has it. -/
theorem State.keepsFixed_portOut (s : State) (p : Addr) (v : Byte) : s.KeepsFixed (s.portOut p v) := by
  rw [State.portOut]
  cases hrow : selectRow s.decodeCtx p with
  | pagehi =>
    have hmap : s.cfg.map1mb = true := condition_of_selectRow (by decide) hrow
    refine ⟨fun i hi => ?_, fun h32 => ?_, fun _ => rfl⟩
    · exact (s.slotBank_rowPagehi v i).trans (if_neg hi)
    · rw [Config.map1mb, h32] at hmap
      cases hmap
  | regdata14 =>
    have hreg := (Bool.and_eq_true_iff.1 (condition_of_selectRow (by decide) hrow)).2
    exact ⟨fun _ _ => rfl, fun _ => rfl, fun hno => absurd (hno.symm.trans hreg) (by decide)⟩
  | border | pagelo | l2ctrl | regsel | regdata12 | regdata13 | regdataNone | rsvd | none => exact .of_eq rfl rfl

theorem Effect.keepsFixed {i : Instr} {s t : State} (he : Effect i s t) : s.KeepsFixed t := by
  cases he with
  | port p v =>
    obtain ⟨hslots, htable, htransp⟩ := s.keepsFixed_portOut p v
    exact ⟨hslots, htable, htransp⟩
  | writereg r v =>
    obtain ⟨hslots, htable, htransp⟩ := (s.rowRegsel r).keepsFixed_portOut portRegdata v
    exact ⟨hslots, htable, htransp⟩
  | ram => exact .of_eq (by rw [State.setRamBytes_eq]; rfl) (by rw [State.setRamBytes_eq]; rfl)
  | bulk => exact .of_eq (by rw [State.setRamBytes_eq]; rfl) (by rw [State.setRamBytes_eq]; rfl)
  | encoded => exact .of_eq (by rw [State.deliverEncoded_eq]) (by rw [State.deliverEncoded_eq])
  | tick => exact .of_eq (by rw [State.flashTick_frame]; rfl) (by rw [State.flashTick_frame]; rfl)
  | deliver | readreg | frame | ackredraw | sums => exact .of_eq rfl rfl

/-- Settles O59: a step idles or has one effect, which keeps the parameters, the palette and `State.KeepsFixed`. -/
theorem whatNoStepChanges : Obligations.WhatNoStepChanges := by
  intro s t h
  rcases step_cases h with rfl | ⟨i, rest, -, hexec⟩
  · exact ⟨rfl, rfl, fun _ _ => rfl, fun _ => rfl, fun _ => rfl⟩
  · obtain ⟨hpal, hcfg⟩ := (exec_effect hexec).constant_eq
    obtain ⟨hslots, htable, htransp⟩ := (exec_effect hexec).keepsFixed
    exact ⟨hcfg, hpal, hslots, htable, htransp⟩

end Sys2Proof.Machine
